-- ==== Sys2Proof/Word.lean ====
section
/-! DEFINITION. The widths of the EL6420 (R4, R189) and the numbers that name its parts. -/

namespace Sys2Proof

/-- A byte of a payload, of SRAM or of the flash. -/
abbrev Byte := BitVec 8

/-- A register or an SRAM word (R4). -/
abbrev Word := BitVec 32

/-- A value of the raw counter (R189). -/
abbrev Raw := BitVec 64

/-- A channel, 0 to 63. -/
abbrev ChanNo := Fin 64

/-- A line die and its sentinel, 0 to 3; die d serves channels 16d to 16d + 15. -/
abbrev DieNo := Fin 4

/-- A launch-queue entry, 0 to 127 (R106). -/
abbrev LqIdx := Fin 128

/-- A fabric lock, 0 to 255 (R247). -/
abbrev LockNo := Fin 256

/-- A shared resource of the concourse (R256). -/
abbrev ResNo := Fin 20

/-- A micro-engine (R305). -/
abbrev EngNo := Fin 8

/-- A context of an engine (R305). -/
abbrev CtxNo := Fin 32

/-- A register g0 to g15 of a context (R305). -/
abbrev GReg := Fin 16

/-- A pin cell, 0 to 127 (R315). -/
abbrev PinNo := Fin 128

/-- An offset in the 1 GiB device window (R4, R237). -/
abbrev Offs := BitVec 30

/-- The line die of a channel. -/
def dieOf (n : ChanNo) : DieNo := ⟨n.val / 16, by omega⟩

/-- The engine that owns a pin cell (R305). -/
def engOf (p : PinNo) : EngNo := ⟨p.val / 16, by omega⟩

end Sys2Proof
end

