-- ==== Sys2Proof/Syntax.lean ====
section
/-! DEFINITION. The commands of the block: one constructor of Instr for every row of spec/opcode_table.json, with the
operands the step takes from outside the device. -/

namespace Sys2Proof

/-- Who makes a register access (R419): a station of the ring, the service port, or the housekeeper. -/
inductive Src where
  | ring (station : BitVec 10)
  | service
  | housekeeper
  deriving DecidableEq, Repr

/-- A ring port (R215). -/
inductive Side where
  | east
  | west
  deriving DecidableEq, Repr

/-- A lane port (R215). -/
inductive Port where
  | east
  | west
  | mirror
  deriving DecidableEq, Repr

/-- A bus frame as it stands on the bus (R72, R129). rtr is RTR of a classical frame or RRS of an FD frame. -/
structure Frame where
  ident : BitVec 29
  ide : Bool
  rtr : Bool
  fdf : Bool
  brs : Bool
  esi : Bool
  dlc : BitVec 4
  data : List Byte
  deriving DecidableEq, Repr

/-- What a JOURNAL_WORD_STAGED step has complete (R136): the frame's fields up to its DLC, or one payload word. -/
inductive Piece where
  | head (f : Frame)
  | data (w : Word)
  deriving DecidableEq, Repr

/-- The error kinds an ERROR_DETECTED step can have (R92). -/
inductive ErrKind where
  | bit0 | bit1 | stuff | form | crc | stuffCount | ack | tdcRange
  deriving DecidableEq, Repr

/-- The fields of a bus frame that an error entry names, in the order of their codes 0x00 to 0x18 (R93). -/
inductive BusField where
  | sof | baseId | rtr | ide | extId | rtrExt | fdf | res | brs | esi | dlc | data | stuffCount | crc | crcDelim | ackSlot
  | ackDelim | eof | intermission | errorFlag | errorDelim | overloadFlag | overloadDelim | suspension | idle
  deriving DecidableEq, Repr, Inhabited

/-- Which counting rule of ISO 11898-1:2015 the detection falls under (R94, R12). -/
inductive ErrCount where
  /-- transmitter 8, receiver 1 -/
  | normal
  /-- a case the standard leaves uncounted -/
  | exempt
  /-- receiver that sees a dominant bit first after its error flag, or a bit error in a flag, or a dominant run: 8 -/
  | heavy
  deriving DecidableEq, Repr

/-- A ring cell (R218, R219), with the trailer's CRC-32C as received (R220). -/
structure RCell where
  dest : BitVec 10
  src : BitVec 10
  ctype : BitVec 6
  seq : BitVec 16
  epoch : BitVec 8
  hop : BitVec 10
  bcast : Bool
  pair : Bool
  retried : Bool
  wrapOdd : Bool
  payload : List Byte
  seqEcho : BitVec 16
  crc : BitVec 32
  deriving DecidableEq, Repr

/-- Why a port declares link failure (R231). -/
inductive LinkCause where
  | invalidBlocks | lockLost | hiBer | rxLos | modAbs | txFault
  deriving DecidableEq, Repr

/-- What a HEARTBEAT cell carries (R281); with it the role preference that R290 compares, PAIR_FCLOCAL, which R299 and R300 ask of
the partner, and PAIR_RAWDIFF, of which the active takes the shadow's (R434; log 105). -/
structure HbMsg where
  role : BitVec 2
  state : BitVec 3
  pairEpoch : BitVec 8
  stEpoch : BitVec 8
  digest : BitVec 32
  pref : BitVec 2
  fcLocal : BitVec 64
  rawDiff : BitVec 64
  resyncNo : BitVec 8
  deriving DecidableEq, Repr

/-- What a RESYNC cell that ends a direction carries: its seq, and the number of the resync that it ends (R283; log 27). -/
structure ResyncMsg where
  seq : BitVec 16
  no : BitVec 8
  deriving DecidableEq, Repr

/-- The state of a launch-queue entry (R106). -/
inductive LqSt where
  | free | waiting | ready | onBus
  deriving DecidableEq, Repr

/-- The fault-confinement state (R94). -/
inductive FcSt where
  | active | passive | busOff
  deriving DecidableEq, Repr

/-- A phase of a sleep ballot (R188). -/
inductive BalPh where
  | idle | offer | window | commit | descent | follow
  deriving DecidableEq, Repr

/-- What a JPOS cell says was done (R284, R288). -/
inductive JposOp where
  | pop | setMark | rewind | clearMark | flush | policy (hold : Bool)
  deriving DecidableEq, Repr

/-- A hold-log entry (R172); told: its streak has reached hold_repeat_n and has not returned to 0 since (R173). -/
structure HoldEnt where
  ident : BitVec 29
  used : Bool
  count : BitVec 16
  sat : Bool
  node : BitVec 7
  streak : BitVec 8
  stamp : Raw
  told : Bool
  deriving DecidableEq, Repr

/-- Why a TOKEN cell is sent (R280, R298, R299, R300): which castling it completes, or, as ask, that the partner is asked for the castling of the
channels named, every one for the whole pair (log 106). -/
inductive TokenWhy where
  | whole | busOff | channel | plain | ask | begun | over
  deriving DecidableEq, Repr

/-- The parts of a channel unit that use the concourse (R462); every other requester is one part. -/
inductive ConPart where
  | journal | queue | mirror | whole
  deriving DecidableEq, Repr

/-- Where an NSP request comes from: the service port, or a station's NSP_REQ cells (R375). -/
inductive NspFrom where
  | port
  | station (n : BitVec 10)
  deriving DecidableEq, Repr

/-- An NSP request frame less its sync and command bytes (R370), with its CRC-16 as received (R371). -/
structure NspReq where
  seq : Byte
  zero : Byte
  addr : BitVec 48
  payload : List Byte
  crc : BitVec 16
  deriving DecidableEq, Repr

/-- A bound cell that stops partway through a word (R313): the bits driven or sampled so far, and, of a receiving cell, the
bits sampled, standing where a complete word has them. -/
structure PinStop where
  cell : Fin 16
  bits : BitVec 6
  word : Word
  deriving DecidableEq, Repr

/-- The commands of the block, one constructor per row of spec/opcode_table.json, in the table's order. -/
inductive Instr where
  | registerWrite (src : Src) (off : Offs) (bytes : Nat) (value : Word)
  | lowHalfRead (src : Src) (off : Offs) (bytes : Nat)
  | lowHalfWrite (src : Src) (off : Offs) (value : Word)
  | highHalfWrite (src : Src) (off : Offs) (value : Word)
  | tempoMeasurement (ps : BitVec 16)
  | peakClear
  | vcoreEconEnter
  | vcoreEconExit
  | lineReqOff (n : ChanNo)
  | lineReqSleep (n : ChanNo)
  | lineReqNormal (n : ChanNo)
  | lineReqListen (n : ChanNo)
  | termEnWrite (n : ChanNo) (v : Bool)
  | localWakeEnWrite (n : ChanNo) (v : Bool)
  | lineTransitionComplete (n : ChanNo)
  | wupRecognised (n : ChanNo) (tick : Nat)
  | wufRecognised (n : ChanNo) (tick : Nat) (f : Frame)
  | wufErrcnt (n : ChanNo) (tick : Nat)
  | wakeNRecognised (tick : Nat)
  | tConfirmExpiry (n : ChanNo)
  | tOrphanExpiry (d : DieNo)
  | sentinelHeartbeat (d : DieNo)
  | vlineUndervoltage (d : DieNo)
  | vlineRestored (d : DieNo)
  | overTemperature (d : DieNo)
  | overTemperatureClear (d : DieNo)
  | dominantTimeout (n : ChanNo)
  | domHoldRelease (n : ChanNo)
  | lineCalStart (n : ChanNo)
  | lineCalDone (n : ChanNo) (result : BitVec 12)
  | biasRelease (n : ChanNo)
  | vaonPorRelease
  | vaonPorAssert
  | sofOnBus (n : ChanNo) (loop : Option (BitVec 7))
  | rxFrameValid (n : ChanNo) (f : Frame)
  | txFrameValid (n : ChanNo)
  | arbitrationLost (n : ChanNo)
  | errorDetected (n : ChanNo) (kind : ErrKind) (field : BusField) (idx : BitVec 12) (cnt : ErrCount)
  | protocolException (n : ChanNo) (field : BusField) (idx : BitVec 12)
  | overloadSent (n : ChanNo) (field : BusField)
  | busIntegration (n : ChanNo)
  | recoveryStart (n : ChanNo)
  | recoveryDone (n : ChanNo)
  | lqWindowWrite (n : ChanNo) (w : Fin 24) (value : Word)
  | lqCommit (n : ChanNo) (i : LqIdx)
  | launchTimeReached (n : ChanNo) (i : LqIdx)
  | lqCancel (n : ChanNo) (i : LqIdx)
  | lqCancelAll (n : ChanNo)
  | cancelApply (n : ChanNo)
  | journalWrite (n : ChanNo)
  | journalPop (n : ChanNo)
  | journalWindowRead (n : ChanNo) (count : Fin 21)
  | setMark (n : ChanNo)
  | rewind (n : ChanNo)
  | clearMark (n : ChanNo)
  | flush (n : ChanNo)
  | ballotGo (n : ChanNo)
  | ballotAbort (n : ChanNo)
  | clearLog (n : ChanNo)
  | ballotWindowEnd (n : ChanNo)
  | preArm (n : ChanNo)
  | arm (n : ChanNo)
  | descentEnd (n : ChanNo)
  | holdWithdraw (n : ChanNo)
  | reballot (n : ChanNo)
  | wakeCalStart (n : ChanNo)
  | wakeCalDone (n : ChanNo) (taps : BitVec 12)
  | wakeValidExpiry (n : ChanNo) (tick : Nat)
  | wakeModeWrite (n : ChanNo) (frameOnly : Bool)
  | timeNowRead
  | offsetRead
  | offsetIncCommit (src : Src) (hi : Word)
  | rateIncCommit (src : Src) (hi : Word)
  | incrementApply
  | conversionStart (hi : Word)
  | conversionDone
  | beaconSend
  | beacon (at_ : Side) (c : RCell) (rc : Raw) (k : Fin 125)
  | pdelayReqSend (p : Port)
  | pdelayReq (p : Port) (c : RCell) (rc : Raw) (k : Fin 125)
  | pdelayResp (p : Port) (c : RCell) (rc : Raw) (k : Fin 125)
  | masterLost
  | timeMasterWrite (station : BitVec 10)
  | ringEnWrite (v : Bool)
  | rejoin
  | retrainEast
  | retrainWest
  | retrainMirror
  | blockLock (p : Port)
  | phiMeasured (p : Port) (phi : BitVec 2) (u : Fin 66)
  | trainSend (p : Port)
  | train (at_ : Side) (station : BitVec 10) (opposite : Bool) (nbrUp : Bool)
  | joinComplete
  | ownerReset (at_ : Side) (c : RCell)
  | topo (at_ : Side) (c : RCell)
  | topoSend
  | mapAgeing (station : BitVec 10)
  | linkFailure (p : Port) (cause : LinkCause)
  | spanDown (at_ : Side)
  | cellArrival (at_ : Side) (c : RCell)
  | cellEgress (at_ : Side)
  | roleEpochReturn (c : RCell)
  | retryWaitExpiry (seq : BitVec 16)
  | routeUpdate (at_ : Side) (c : RCell)
  | rdReq (at_ : Side)
  | wrReq (at_ : Side)
  | wrPosted (at_ : Side)
  | rdResp (c : RCell)
  | wrAck (c : RCell)
  | lockResp (c : RCell)
  | requestTimeout (seq : BitVec 16)
  | sfpInsert (p : Port) (a0 : List Byte)
  | sfpPoll (p : Port) (a2 : List Byte)
  | lockReq (at_ : Side)
  | lockAcquire (src : Src) (i : LockNo) (lease : BitVec 16)
  | lockRelease (src : Src) (i : LockNo) (lease : BitVec 16)
  | lockRenew (src : Src) (i : LockNo) (lease : BitVec 16)
  | lockClearBroken (src : Src) (i : LockNo) (lease : BitVec 16)
  | lockBreak (src : Src) (i : LockNo) (lease : BitVec 16)
  | leaseExpiry (i : LockNo)
  | concourseRequest (q : Fin 78) (part : ConPart) (r : ResNo)
  | concourseDecision (r : ResNo)
  | concourseRelease (r : ResNo)
  | conFreezeWrite (mask : BitVec 20)
  | heartbeatSend
  | heartbeat (q : BitVec 16) (m : HbMsg)
  | heartbeatLoss
  | checkTimeout
  | splitCheckTimer
  | lqWin (q : BitVec 16) (n : ChanNo) (i : LqIdx) (w : Fin 24) (value : Word)
  | lqState (q : BitVec 16) (n : ChanNo) (i : LqIdx) (st : LqSt) (cancel : Bool) (late : Bool) (committed : Bool)
  | fc (q : BitVec 16) (n : ChanNo) (tec : BitVec 9) (rec : BitVec 8) (st : FcSt)
  | jpos (q : BitVec 16) (n : ChanNo) (op : JposOp) (time : BitVec 80)
  | time (q : BitVec 16) (rate : BitVec 48) (offset : BitVec 80) (gen : BitVec 4) (boundary : Raw)
  | ballot (q : BitVec 16) (n : ChanNo) (phase : BalPh) (number : BitVec 8) (windowEnd : Raw) (descentEnd : Raw) (sleepOrder : Bool)
  | holdlog (q : BitVec 16) (n : ChanNo) (i : Fin 16) (e : HoldEnt)
  | context (q : BitVec 16) (k : EngNo) (c : CtxNo) (regs : Vector Word 16)
  | lock (q : BitVec 16) (i : LockNo) (owner : BitVec 10) (held : Bool) (leaseMs : BitVec 16) (leaseEnd : Raw) (broken : Bool)
  | epoch (q : BitVec 16) (pairEpoch : BitVec 8) (stEpoch : BitVec 8) (castled : BitVec 64)
  | token (q : BitVec 16) (channels : BitVec 64) (why : TokenWhy)
  | resync (q : ResyncMsg)
  | forceResync
  | castle
  | channelCastle (n : ChanNo)
  | tokenRelease (n : ChanNo)
  | mirrorUpTimeout
  | partnerWaitTimeout
  | joinWaitTimeout
  | engineStart (k : EngNo)
  | engineStop (k : EngNo)
  | engineStopped (k : EngNo) (cells : List PinStop)
  | stallEnd (k : EngNo) (c : CtxNo)
  | illegal (k : EngNo) (c : CtxNo)
  | add (k : EngNo) (c : CtxNo) (rd ra rb : GReg)
  | sub (k : EngNo) (c : CtxNo) (rd ra rb : GReg)
  | and (k : EngNo) (c : CtxNo) (rd ra rb : GReg)
  | or (k : EngNo) (c : CtxNo) (rd ra rb : GReg)
  | xor (k : EngNo) (c : CtxNo) (rd ra rb : GReg)
  | shl (k : EngNo) (c : CtxNo) (rd ra rb : GReg)
  | shr (k : EngNo) (c : CtxNo) (rd ra rb : GReg)
  | sra (k : EngNo) (c : CtxNo) (rd ra rb : GReg)
  | addi (k : EngNo) (c : CtxNo) (rd ra : GReg) (imm : BitVec 18)
  | andi (k : EngNo) (c : CtxNo) (rd ra : GReg) (imm : BitVec 18)
  | ori (k : EngNo) (c : CtxNo) (rd ra : GReg) (imm : BitVec 18)
  | xori (k : EngNo) (c : CtxNo) (rd ra : GReg) (imm : BitVec 18)
  | shli (k : EngNo) (c : CtxNo) (rd ra : GReg) (sh : Fin 32)
  | shri (k : EngNo) (c : CtxNo) (rd ra : GReg) (sh : Fin 32)
  | srai (k : EngNo) (c : CtxNo) (rd ra : GReg) (sh : Fin 32)
  | ldi (k : EngNo) (c : CtxNo) (rd : GReg) (imm : BitVec 16)
  | ldh (k : EngNo) (c : CtxNo) (rd : GReg) (imm : BitVec 16)
  | ext (k : EngNo) (c : CtxNo) (rd ra : GReg) (pos : Fin 32) (lenM1 : Fin 32)
  | beq (k : EngNo) (c : CtxNo) (ra rb : GReg) (target : BitVec 10)
  | bne (k : EngNo) (c : CtxNo) (ra rb : GReg) (target : BitVec 10)
  | blt (k : EngNo) (c : CtxNo) (ra rb : GReg) (target : BitVec 10)
  | bge (k : EngNo) (c : CtxNo) (ra rb : GReg) (target : BitVec 10)
  | bltu (k : EngNo) (c : CtxNo) (ra rb : GReg) (target : BitVec 10)
  | bgeu (k : EngNo) (c : CtxNo) (ra rb : GReg) (target : BitVec 10)
  | beqi (k : EngNo) (c : CtxNo) (ra : GReg) (imm : BitVec 8) (target : BitVec 10)
  | bnei (k : EngNo) (c : CtxNo) (ra : GReg) (imm : BitVec 8) (target : BitVec 10)
  | jmp (k : EngNo) (c : CtxNo) (target : BitVec 10)
  | call (k : EngNo) (c : CtxNo) (target : BitVec 10)
  | jr (k : EngNo) (c : CtxNo) (ra : GReg)
  | sld (k : EngNo) (c : CtxNo) (rd ra : GReg) (imm : BitVec 18)
  | sst (k : EngNo) (c : CtxNo) (rd ra : GReg) (imm : BitVec 18)
  | mld (k : EngNo) (c : CtxNo) (rd ra : GReg) (imm : BitVec 18)
  | mst (k : EngNo) (c : CtxNo) (rd ra : GReg) (imm : BitVec 18)
  | ppush (k : EngNo) (c : CtxNo) (ra : GReg) (cell : Fin 16)
  | ppop (k : EngNo) (c : CtxNo) (rd : GReg) (cell : Fin 16)
  | ppopn (k : EngNo) (c : CtxNo) (rd rv : GReg) (cell : Fin 16)
  | jrd (k : EngNo) (c : CtxNo) (rd rt : GReg)
  | jpk (k : EngNo) (c : CtxNo) (rd : GReg)
  | jwait (k : EngNo) (c : CtxNo) (imm : BitVec 18)
  | lqw (k : EngNo) (c : CtxNo) (rd ra : GReg) (w : Fin 24)
  | txq (k : EngNo) (c : CtxNo) (rd ra : GReg)
  | txc (k : EngNo) (c : CtxNo) (ra : GReg)
  | trd (k : EngNo) (c : CtxNo) (rd : GReg)
  | tconv (k : EngNo) (c : CtxNo) (rd ra rb rc : GReg)
  | waita (k : EngNo) (c : CtxNo) (ra : GReg) (imm : BitVec 18)
  | waitd (k : EngNo) (c : CtxNo) (imm : BitVec 18)
  | rpost (k : EngNo) (c : CtxNo) (ra rb rc : GReg) (nM1 : BitVec 4)
  | msync (k : EngNo) (c : CtxNo)
  | halt (k : EngNo) (c : CtxNo)
  | pinRxWord (p : PinNo) (w : Word)
  | pinTxLoad (p : PinNo)
  | pinTxWordEnd (p : PinNo)
  | pinEdge (p : PinNo) (level : Bool)
  | pinAsyncStart (p : PinNo) (level : Bool)
  | pinHostPush (p : PinNo) (w : Word)
  | pinHostPop (p : PinNo)
  | memWrite (addr : BitVec 22) (w : Word)
  | imageVerify
  | imageApply
  | districtHold (src : Src) (d : BitVec 4)
  | districtRelease (src : Src) (d : BitVec 4)
  | drainComplete
  | holdTimeout
  | nspPoll
  | nspFrameAborted
  | read (o : NspFrom) (q : NspReq)
  | write (o : NspFrom) (q : NspReq)
  | updateOpen (o : NspFrom) (q : NspReq)
  | updateChunk (o : NspFrom) (q : NspReq)
  | updateClose (o : NspFrom) (q : NspReq)
  | commit (o : NspFrom) (q : NspReq)
  | slotSelectTrial (o : NspFrom) (q : NspReq)
  | slotSelectCancel (o : NspFrom) (q : NspReq)
  | slotSelectRestart (o : NspFrom) (q : NspReq)
  | recoveryPing (o : NspFrom) (q : NspReq)
  | reservedCommand (o : NspFrom) (code : Byte) (q : NspReq)
  | nspReq (at_ : Side)
  | nspResp (c : RCell)
  | nspReassemblyTimeout (station : BitVec 10)
  | updateSessionTimeout
  | trialTimerExpiry
  | restartDelayExpiry
  | tagPersist
  | tagPersistTimer
  | ledgerWriteDone
  | latticePorAssert
  | rstNAssert
  | restart
  | watchdogExpiry
  | latticeResetRelease (recoverLow : Bool) (tick : Nat)
  | startService
  | standbyRequest
  | standbyCancel
  | wakeNReturnHigh
  | decodingTraffic (n : ChanNo)
  | decoderFrameEnd (n : ChanNo) (valid : Bool)
  | partialCellDiscard (p : Port)
  | mirrorCellError
  | rxFrameSof (n : ChanNo)
  | journalWordStaged (n : ChanNo) (p : Piece)
  | followPreArm (n : ChanNo)
  | vioBLow
  | vioBRestored
  deriving DecidableEq, Repr

end Sys2Proof
end

