-- ==== Sys2Proof/Config.lean ====
section
/-! DEFINITION. What the spec leaves open about an EL6420 and the model leaves free: constants without a body, so that no
proof can rest on a value of theirs. Each is applied to plain data of the state and, where one moment can meet it twice,
to the counter the step reads and advances. -/

namespace Sys2Proof.Config

/-- The bit index (0 to 4 095) of the bit in progress when the receiver goes off (R104), where it hangs on bits of a received frame that no
command has told (log 12). -/
opaque bitIndex : Nat → BitVec 12

/-- The field code of that bit (R93, R104; log 12). -/
opaque bitField : Nat → BusField

/-- What the check bits make of a word with three or more bits in error: CORR, UNCORR and the 33 bits delivered
(R150, R305; log 13). -/
opaque eccPattern : Nat → BitVec 35

/-- A link delay outside the range of its register (R209): the spec states no result there (log 14). -/
opaque readValue : Nat → BitVec 32

/-- Whether resident code that writes one ledger format version can read another (R389; log 39). -/
opaque readsOther : BitVec 16 → BitVec 16 → Bool

/-- The bytes of a ledger's content in a format version, from the tag area (words by index), the settings and the calibration (by channel):
the layout is Askaun's own (R387; log 130). -/
opaque ledgerContent : BitVec 16 → List (Nat × BitVec 32) → List (BitVec 8) → List (Nat × Option (BitVec 5)) → List (BitVec 8)

/-- The resident code's own check in a trial boot finds a fault (R386; log 126). -/
opaque codeCheckFails : Nat → Bool

end Sys2Proof.Config
end

