-- ==== Sys2Proof/Machine/State.lean ====
section
/-! DEFINITION. The state of the EL6420 as plain data, every register, buffer, counter, mode and pin the spec names, each
with its value after reset as the default of its field. A docstring names the register or the item, its rule and
file, its width and its reset value. -/

namespace Sys2Proof.Machine

/-- A sparse store: (key, value) pairs with rising keys, no entry equal to what an unlisted key reads as. -/
abbrev Tab (α : Type) := List (Nat × α)

/-- A saturating counter register of 16 bits with its SAT bit (R10). -/
structure Cnt where
  count : BitVec 16 := 0
  sat : Bool := false
  deriving DecidableEq, Repr

/-- The channel roles (R79). -/
inductive Role where
  | off | head | member | listen
  deriving DecidableEq, Repr

/-- The line states (R42). -/
inductive LineSt where
  | off | sleep | normal | listen | standby
  deriving DecidableEq, Repr

/-- What the frame engine is doing on the bus (R77, R83, R115). -/
inductive Activity where
  | none | receiving | transmitting
  deriving DecidableEq, Repr

/-- The frame engine of a channel (04_frame_engine.md). -/
structure FrameEngine where
  /-- CHn_ROLE role (R79, R105, 04_frame_engine.md): 2 bits; reset 0b00 OFF. -/
  role : Role := .off
  /-- CHn_FE_CFG (R86, R105, 04_frame_engine.md): bits fd_en, pex_en, tdc_en; reset 0. -/
  feCfg : BitVec 3 := 0
  /-- CHn_NBT (R85, R105, 04_frame_engine.md): 32 bits; reset 0x078F_3E01. -/
  nbt : Word := 0x078F3E01#32
  /-- CHn_DBT (R85, R105, 04_frame_engine.md): 32 bits; reset 0x003D_11A1. -/
  dbt : Word := 0x003D11A1#32
  /-- Bit timing in use, nominal, taken at the last bus integration (R86, 04_frame_engine.md): 32 bits; reset 0x078F_3E01. -/
  nbtUse : Word := 0x078F3E01#32
  /-- Bit timing in use, data phase (R86, 04_frame_engine.md): 32 bits; reset 0x003D_11A1. -/
  dbtUse : Word := 0x003D11A1#32
  /-- Configuration in use (R86, 04_frame_engine.md): 3 bits; reset 0. -/
  cfgUse : BitVec 3 := 0
  /-- CHn_TDC tdc_meas (R89, R105, 04_frame_engine.md): 8 bits; reset 0x00. -/
  tdcMeas : BitVec 8 := 0
  /-- CHn_TDC tdc_valid (R105, 04_frame_engine.md): 1 bit; reset 0. -/
  tdcValid : Bool := false
  /-- CHn_FC tec (R94, R105, 04_frame_engine.md): 9 bits; reset 0x000. -/
  tec : BitVec 9 := 0
  /-- CHn_FC rec (R94, R105, 04_frame_engine.md): 8 bits; reset 0x00. -/
  recv : BitVec 8 := 0
  /-- CHn_FC fc_state (R94, R105, 04_frame_engine.md): 2 bits; reset error-active. -/
  fcState : FcSt := .active
  /-- CHn_RESTART recovering (R99, R105, 04_frame_engine.md): 1 bit; reset 0. -/
  recovering : Bool := false
  /-- CHn_RESTART recov_cnt (R99, R105, 04_frame_engine.md): 8 bits; reset 0x00. -/
  recovCnt : BitVec 8 := 0
  /-- CHn_FE_EVT (R105, 04_frame_engine.md): 8 bits, busoff_seen up to rx_lost; reset 0. -/
  evt : BitVec 8 := 0
  /-- CHn_LASTERR (R91, R105, 04_frame_engine.md): 32 bits; reset 0. -/
  lastErr : Word := 0
  /-- CHn_ERR bad_code and rwh_refused (R424, 17_registers_local.md): 2 bits; reset 0. -/
  err : BitVec 2 := 0
  /-- CHn_ERR last_offs (R424, 17_registers_local.md): 12 bits; reset 0x000. -/
  errOffs : BitVec 12 := 0
  /-- Bus integration done, the engine may take part in a frame (R83, 04_frame_engine.md): 1 bit; reset 0. -/
  integrated : Bool := false
  /-- The bus is idle (R83, R164, 04_frame_engine.md): 1 bit; reset 0. -/
  busIdle : Bool := false
  /-- The intermission after a valid frame runs, after which the bus is idle (R83, R77, 04_frame_engine.md): 1 bit; reset 0. -/
  intermission : Bool := false
  /-- The frame in progress and the engine's part in it (R77, R115, 04_frame_engine.md): one of none, receiving, transmitting; reset none. -/
  activity : Activity := .none
  /-- The engine still follows the bus in monitoring mode: driving mode, if it holds, is entered at the next bus idle (R83, R103,
  04_frame_engine.md): 1 bit; reset 0. -/
  monitored : Bool := false
  /-- The channel is or was transmitter of the latest frame (R91, R94, 04_frame_engine.md): 1 bit; reset 0. -/
  asTx : Bool := false
  /-- Stored stamp of the hard synchronisation of the frame's SOF (R66, R78, 04_frame_engine.md): 64 bits; reset 0. -/
  stamp : Raw := 0
  /-- Raw counter at the edge of the frame's SOF, from which the engine's bit timing runs (R84, R102, 04_frame_engine.md): 64 bits; reset 0. -/
  sofRaw : Raw := 0
  /-- Correction generation when that stamp was sampled (R197, 08_fabric_time.md): 4 bits; reset 0. -/
  gen : BitVec 4 := 0
  /-- The error flag sent at the latest counted error, by the state before it was counted (R94, 04_frame_engine.md): active,
  passive, or none sent; reset none. -/
  errFlag : Option FcSt := none
  /-- The own frame in progress was preceded by the 8 bits of suspend transmission (R94, 04_frame_engine.md): 1 bit; reset 0. -/
  suspended : Bool := false
  /-- The bits of the channel's own frame on the bus, stuff bits included, each with its field (R72, R120, R460,
  04_frame_engine.md); reset empty. -/
  txBits : List (Bool × BusField) := []
  /-- The channel's own frame as sent, en-passant bytes in place (R119, R120, 05_launch_queues.md); reset none. -/
  txFrame : Option Frame := none
  deriving DecidableEq, Repr

/-- The life of one launch-queue entry; its 24 words stand in SRAM (R106, R107). -/
structure LqEnt where
  /-- Entry state (R106, 05_launch_queues.md): 2 bits; reset FREE. -/
  st : LqSt := .free
  /-- A cancel is latched on the ON_BUS entry (R117, 05_launch_queues.md): 1 bit; reset 0. -/
  cancel : Bool := false
  /-- The launch time had passed at commit under SEND (R112, 05_launch_queues.md): 1 bit; reset 0. -/
  late : Bool := false
  /-- Its outcome is decided and its TX_ECHO entry not yet complete (R122, 05_launch_queues.md): 1 bit; reset 0. -/
  closing : Bool := false
  /-- Words 0 to 19 as the launch-queue unit fetched them at the commit, or at the SOF since; none of a FREE entry (R256, R270, R462,
  10_concourse.md; log 160): up to 20 words; reset none. -/
  words : List Word := []
  deriving DecidableEq, Repr

/-- The launch queue of a channel (05_launch_queues.md). -/
structure LaunchQ where
  /-- CHn_LQ_SEL index (R124, 05_launch_queues.md): 7 bits; reset 0. -/
  sel : BitVec 7 := 0
  /-- CHn_LQ_RESULT index (R124, 05_launch_queues.md): 7 bits; reset 0. -/
  resIdx : BitVec 7 := 0
  /-- CHn_LQ_RESULT code (R109, R124, 05_launch_queues.md): 4 bits; reset 0x0 NONE. -/
  resCode : BitVec 4 := 0
  /-- CHn_LQ_EVT (R124, 05_launch_queues.md): 6 bits, win_busy up to flushed; reset 0. -/
  evt : BitVec 6 := 0
  /-- The 128 entries, by index, an unlisted one FREE (R106, 05_launch_queues.md); reset all FREE. -/
  ents : Tab LqEnt := []
  /-- Cancels in their 2 B cycles + 14 tempi crossing, none for cancel-all (R117, R118, 05_launch_queues.md); reset empty. -/
  cancels : List (Option LqIdx) := []
  /-- SRAM byte offset of the queue, none before a load has placed it (R106, R350, 14_structure_image.md): 24 bits; reset none. -/
  base : Option Nat := none
  /-- Of an entry whose words 2 and 3 stand in this member's own raw counter, the launch time as the partner holds it; an unlisted entry
  has them as the partner wrote them (R461, 11_pair.md): 64 bits each; reset none listed. -/
  abroad : Tab (Option Raw) := []
  deriving DecidableEq, Repr

/-- A step of journal writing that waits in the channel's staging buffer (R136, R272). -/
inductive JItem where
  /-- tentative words of the frame in progress, with the frame's correction generation -/
  | tent (ws : List Word) (gen : BitVec 4)
  /-- the end of a frame entry: the words not yet written, the last with END; the launch-queue entry a TX_ECHO frees -/
  | fin (ws : List Word) (echo : Option LqIdx)
  /-- a whole entry in one burst; the launch-queue entry that an unsent completion frees -/
  | whole (ws : List Word) (echo : Option LqIdx)
  /-- the marker of a frame lost with words in the journal, whose places it takes; it carries its entry sequence (R144, R273) -/
  | marker (ws : List Word)
  deriving DecidableEq, Repr

/-- The receive journal of a channel; its words stand in SRAM (06_journals.md). -/
structure Journal where
  /-- SRAM byte offset of the journal, none before a load has placed it (R126, R350, 06_journals.md): 24 bits; reset none. -/
  base : Option Nat := none
  /-- CHn_JCAP capacity (R151, R152, 06_journals.md): 19 bits; reset 0x0_8000. -/
  cap : BitVec 19 := 0x08000#19
  /-- Read position, in words since the journal was placed (R141, 06_journals.md); reset 0. -/
  rd : Nat := 0
  /-- End of the last visible entry, in words (R141, 06_journals.md); reset 0. -/
  wr : Nat := 0
  /-- Tentative words of the frame in progress (R136, 06_journals.md); reset empty. -/
  tent : List Word := []
  /-- Correction generation of the frame whose words are tentative, which its marker carries (R134, 06_journals.md): 4 bits; reset 0. -/
  tentGen : BitVec 4 := 0
  /-- Words of the frame in progress that have entered the staging buffer or the journal (R136, R272, 06_journals.md); reset 0. -/
  frameWords : Nat := 0
  /-- Words of the whole entry of the frame in progress, known from its DLC (R129, R136, 06_journals.md); reset 0. -/
  frameTotal : Nat := 0
  /-- The entry of the frame in progress is lost, its later words are discarded (R144, 06_journals.md): 1 bit; reset 0. -/
  losing : Bool := false
  /-- What waits to be written, in order: the staging buffer of 24 words, with the markers and the unsent completions that wait beside it
  (R118, R272, 10_concourse.md); reset empty. -/
  staging : List JItem := []
  /-- Header words popped of the entry whose END word is not yet popped (R288, 11_pair.md): up to 4; reset empty. -/
  popHdr : List Word := []
  /-- Fabric time of the last whole entry popped, converted with its own generation (R288, 11_pair.md): Q64.16 ns; reset none. -/
  posTime : Option (BitVec 80) := none
  /-- popHdr at the mark (R146, R288, 11_pair.md); reset empty. -/
  markHdr : List Word := []
  /-- posTime at the mark (R146, R288, 11_pair.md); reset none. -/
  markTime : Option (BitVec 80) := none
  /-- The rewind mark, a read position, while valid (R146, 06_journals.md): CHn_JMARK mark_valid and span; reset none. -/
  mark : Option Nat := none
  /-- CHn_JCTRL mark_policy, 1 HOLD (R147, R148, R152, 06_journals.md): 1 bit; reset 0. -/
  hold : Bool := false
  /-- CHn_JMARK jmark_lost (R147, R152, 06_journals.md): 1 bit; reset 0. -/
  markLost : Bool := false
  /-- CHn_JMARK rewind_refused (R146, R152, 06_journals.md): 1 bit; reset 0. -/
  rewindRefused : Bool := false
  /-- CHn_JOVF (R144, R152, 06_journals.md): 16 bits and SAT; reset 0. -/
  ovf : Cnt := {}
  /-- CHn_JCORR (R150, R152, 06_journals.md): 16 bits and SAT; reset 0. -/
  corr : Cnt := {}
  /-- CHn_JUNCORR (R150, R152, 06_journals.md): 16 bits and SAT; reset 0. -/
  uncorr : Cnt := {}
  /-- CHn_JSEQ next_seq (R135, R152, 06_journals.md): 16 bits; reset 0. -/
  nextSeq : BitVec 16 := 0
  /-- Fabric time up to which entries that become visible are consumed on arrival (R288, 11_pair.md): Q64.16 ns; reset none. -/
  consumeTo : Option (BitVec 80) := none
  deriving DecidableEq, Repr

/-- A frame of the sleep ballot that is to be written and committed: identifier, DLC, word 4, and the window end that a HOLD answers (R155,
R158, R171). -/
structure BalFrame where
  ident : Nat
  dlc : Nat
  data : Word
  hold : Option Raw
  deriving DecidableEq, Repr

/-- The sleep ballot of a channel (07_sleep_wake.md). -/
structure Sleep where
  /-- CHn_SLP_CFG window_ms (R154, R188, 07_sleep_wake.md): 8 bits; reset 0x28. -/
  windowMs : BitVec 8 := 0x28#8
  /-- CHn_SLP_CFG descent_ms (R154, R188, 07_sleep_wake.md): 8 bits; reset 0x0A. -/
  descentMs : BitVec 8 := 0x0A#8
  /-- CHn_SLP_CFG hold_repeat_n (R172, R188, 07_sleep_wake.md): 8 bits; reset 0x03. -/
  repeatN : BitVec 8 := 0x03#8
  /-- CHn_SLP_CFG reballot_s (R169, R188, 07_sleep_wake.md): 8 bits; reset 0x00. -/
  reballotS : BitVec 8 := 0
  /-- The times in force for the running ballot, window and descent (R154, 07_sleep_wake.md): 16 bits; reset 0x28, 0x0A. -/
  runWindow : BitVec 8 := 0x28#8
  /-- See runWindow (R154, 07_sleep_wake.md): 8 bits; reset 0x0A. -/
  runDescent : BitVec 8 := 0x0A#8
  /-- The hold_repeat_n in force for the running ballot (R154, R172, 07_sleep_wake.md): 8 bits; reset 0x03. -/
  runRepeat : BitVec 8 := 0x03#8
  /-- The reballot_s in force for the running ballot (R154, R169, 07_sleep_wake.md): 8 bits; reset 0x00. -/
  runReballot : BitVec 8 := 0
  /-- Number of the ballot that a follower follows, from byte 0 of its SLEEP_COMMIT (R170, R184, 07_sleep_wake.md): 8 bits; reset 0x00. -/
  followNo : BitVec 8 := 0
  /-- CHn_SLP_ID offer_id (R154, R188, 07_sleep_wake.md): 11 bits; reset 0. -/
  offerId : BitVec 11 := 0
  /-- CHn_SLP_ID commit_id (R154, R188, 07_sleep_wake.md): 11 bits; reset 0. -/
  commitId : BitVec 11 := 0
  /-- CHn_SLP_ID hold_base_hi (R156, R188, 07_sleep_wake.md): 4 bits; reset 0. -/
  holdBaseHi : BitVec 4 := 0
  /-- CHn_SLP_ID follow (R170, R188, 07_sleep_wake.md): 1 bit; reset 0. -/
  follow : Bool := false
  /-- CHn_SLP_ID plan_valid (R154, R188, 07_sleep_wake.md): 1 bit; reset 0. -/
  planValid : Bool := false
  /-- CHn_SLP_NODE ballot_index (R158, R188, 07_sleep_wake.md): 7 bits; reset 0x7F. -/
  ballotIndex : BitVec 7 := 0x7F#7
  /-- CHn_SLP_NODE own_node (R171, R188, 07_sleep_wake.md): 7 bits; reset 0x00. -/
  ownNode : BitVec 7 := 0
  /-- CHn_SLP_NODE hold_req (R171, R188, 07_sleep_wake.md): 1 bit; reset 0. -/
  holdReq : Bool := false
  /-- CHn_BALLOT phase (R160, R188, 07_sleep_wake.md): 3 bits; reset IDLE. -/
  phase : BalPh := .idle
  /-- CHn_BALLOT last_result (R167, R188, 07_sleep_wake.md): 4 bits; reset 0x0 NONE. -/
  lastResult : BitVec 4 := 0
  /-- CHn_BALLOT refuse_reason (R158, R188, 07_sleep_wake.md): 4 bits; reset 0x0. -/
  refuseReason : BitVec 4 := 0
  /-- CHn_BALLOT ballot (R157, R188, 07_sleep_wake.md): 8 bits; reset 0x00. -/
  number : BitVec 8 := 0
  /-- CHn_BALLOT holders (R188, 07_sleep_wake.md): 7 bits; reset 0x00. -/
  holders : BitVec 7 := 0
  /-- Raw value of the window end (R161, 07_sleep_wake.md): 64 bits; reset 0. -/
  windowEnd : Raw := 0
  /-- Raw value of the descent end (R164, 07_sleep_wake.md): 64 bits; reset 0. -/
  descentEnd : Raw := 0
  /-- HOLDs counted in the running window: node number and last SOF stamp (R161, R172, 07_sleep_wake.md); reset empty. -/
  holds : List (BitVec 7 × Raw) := []
  /-- Raw value at which an automatic ballot starts (R169, 07_sleep_wake.md): 64 bits; reset none. -/
  reballotAt : Option Raw := none
  /-- Window end of the offer that this channel's own HOLD answers (R171, 07_sleep_wake.md): 64 bits; reset none. -/
  holdUntil : Option Raw := none
  /-- A ballot frame that waits for the bank of its launch-queue entry (R256, 10_concourse.md): see BalFrame; reset none. -/
  due : Option BalFrame := none
  /-- CHn_HOLDLOGi (R172, R188, 07_sleep_wake.md): 16 entries; reset empty. -/
  log : Vector HoldEnt 16 := Vector.replicate 16 ⟨0, false, 0, false, 0, 0, 0, false⟩
  deriving DecidableEq, Repr

/-- The recogniser settings that an arming takes (R180). -/
structure WakeSet where
  /-- CHn_WAKE_CFG (R180, R188, 07_sleep_wake.md): 32 bits; reset 0x0000_0A20. -/
  cfg : Word := 0x00000A20#32
  /-- CHn_WUF_ID (R178, R188, 07_sleep_wake.md): 29 bits; reset 0. -/
  id : BitVec 29 := 0
  /-- CHn_WUF_IDMASK (R178, R188, 07_sleep_wake.md): 29 bits; reset 0. -/
  idMask : BitVec 29 := 0
  /-- CHn_WUF_DMASK (R178, R188, 07_sleep_wake.md): 64 bits; reset 0. -/
  dmask : BitVec 64 := 0
  deriving DecidableEq, Repr

/-- The wake recogniser and its records, held by the sentinel except calTaps, calValid, calBusy and calRaw (07_sleep_wake.md). -/
structure Wake where
  /-- The settings the host reads and writes (R188, 07_sleep_wake.md): see WakeSet; reset as there. -/
  set : WakeSet := {}
  /-- The settings in force since the last arming (R180, 07_sleep_wake.md): see WakeSet; reset as there. -/
  use : WakeSet := {}
  /-- CHn_FW_CFG (R181, R182, R188, 07_sleep_wake.md): 32 bits; reset 0x003C_40C8. -/
  fwCfg : Word := 0x003C40C8#32
  /-- CHn_FW_CNT count (R181, R188, 07_sleep_wake.md): 8 bits; reset 0x00. -/
  fwCount : BitVec 8 := 0
  /-- CHn_FW_CNT sat (R10, R188, 07_sleep_wake.md): 1 bit; reset 0. -/
  fwSat : Bool := false
  /-- Raw value at which a line_req took the channel out of SLEEP; a wake of the same sentinel tick is still journalled (R47,
  03_line_interface.md): 64 bits; reset none. -/
  leftAt : Option Raw := none
  /-- Sentinel tick of the wake that last took the channel out of SLEEP; a further wake of that tick is still journalled (R47,
  03_line_interface.md): tick count; reset none. -/
  wokeTick : Option Nat := none
  /-- CHn_WAKE_STAT last_source (R184, R188, 07_sleep_wake.md): 3 bits; reset 0b000. -/
  lastSource : BitVec 3 := 0
  /-- CHn_WAKE_STAT armed (R163, R188, 07_sleep_wake.md): 1 bit; reset 0. -/
  armed : Bool := false
  /-- The recogniser is pre-armed (R163, R170, 07_sleep_wake.md): 1 bit; reset 0. -/
  preArmed : Bool := false
  /-- CHn_WAKE_STAT decoding (R65, R188, 07_sleep_wake.md): 1 bit; reset 0. -/
  decoding : Bool := false
  /-- CHn_WAKE_STAT fw_switched, hold_repeat_seen, wake_seen (R188, 07_sleep_wake.md): 3 bits; reset 0. -/
  evt : BitVec 3 := 0
  /-- The sentinel's latest calibration of the channel (R175, 07_sleep_wake.md): 12 bits; reset none. -/
  sentCal : Option (BitVec 12) := none
  /-- The calibration the armed recogniser holds (R175, 07_sleep_wake.md): 12 bits; reset 33 taps. -/
  armedCal : BitVec 12 := 33#12
  /-- An arming waits for the calibration measured first (R175, 07_sleep_wake.md): 1 bit; reset 0. -/
  armWait : Bool := false
  /-- CHn_WAKE_CAL taps_100ns (R174, R188, 07_sleep_wake.md): 12 bits; reset 0x000. -/
  calTaps : BitVec 12 := 0
  /-- CHn_WAKE_CAL cal_valid (R188, 07_sleep_wake.md): 1 bit; reset 0. -/
  calValid : Bool := false
  /-- A calibration is being measured (R174, 07_sleep_wake.md): 1 bit; reset 0. -/
  calBusy : Bool := false
  /-- Raw value at which the latest calibration was complete (R175, 07_sleep_wake.md): 64 bits; reset 0. -/
  calRaw : Raw := 0
  /-- The decoder's frame error counter (R179, 07_sleep_wake.md): 0 to 32, 6 bits; reset 0. -/
  errCnt : BitVec 6 := 0
  /-- Sentinel ticks of the last 15 false wakes, newest first (R182, 07_sleep_wake.md); reset empty. -/
  fwTimes : List Nat := []
  /-- Sentinel ticks of the WUP wakes whose t_WAKE_VALID runs, oldest first (R181, 07_sleep_wake.md); reset empty. -/
  confirming : List Nat := []
  /-- Offline record: wakes counted (R185, 07_sleep_wake.md): 8 bits; reset 0. -/
  offCount : BitVec 8 := 0
  /-- Offline record: a wake went uncounted at 255 (R184, R185, 07_sleep_wake.md): 1 bit; reset 0. -/
  offSat : Bool := false
  /-- Offline record: source of the last wake (R185, 07_sleep_wake.md): 3 bits; reset 0. -/
  offSource : BitVec 3 := 0
  /-- Offline record: sentinel tick of the last wake (R185, 07_sleep_wake.md); reset 0. -/
  offTick : Nat := 0
  /-- Offline record: t_CONFIRM expired (R185, 07_sleep_wake.md): 1 bit; reset 0. -/
  offConfirm : Bool := false
  /-- Offline record: t_ORPHAN expired (R185, 07_sleep_wake.md): 1 bit; reset 0. -/
  offOrphan : Bool := false
  deriving DecidableEq, Repr

/-- The line interface of a channel (03_line_interface.md). -/
structure Line where
  /-- CHn_LINE_CTRL line_req, domain L (R43, R70, 03_line_interface.md): 3 bits; reset OFF. -/
  req : LineSt := .off
  /-- line_req has been written since the lattice reset release, domain L (R398, 16_power_start.md): 1 bit; reset 0. -/
  reqWritten : Bool := false
  /-- CHn_LINE_CTRL term_en, the sentinel's termination flag and switch (R58, R60, R70, 03_line_interface.md): 1 bit; reset 0. -/
  termEn : Bool := false
  /-- CHn_LINE_CTRL local_wake_en (R64, R70, 03_line_interface.md): 1 bit; reset 0. -/
  localWake : Bool := false
  /-- CHn_LINE_STAT state (R42, R70, 03_line_interface.md): 3 bits; reset OFF. -/
  state : LineSt := .off
  /-- CHn_LINE_STAT token (R50, R70, 03_line_interface.md): 1 bit; reset 0. -/
  token : Bool := false
  /-- CHn_LINE_STAT dom_hold (R55, R70, 03_line_interface.md): 1 bit; reset 0. -/
  domHold : Bool := false
  /-- CHn_LINE_STAT bias_active (R42, R65, R70, 03_line_interface.md): 1 bit; reset 0. -/
  bias : Bool := false
  /-- CHn_LINE_STAT rx_ready (R48, R70, 03_line_interface.md): 1 bit; reset 0. -/
  rxReady : Bool := false
  /-- A transition is in progress: driver off, RXD recessive (R48, 03_line_interface.md): 1 bit; reset 0. -/
  moving : Bool := false
  /-- The last transition was a t_CONFIRM expiry (R54, 03_line_interface.md): 1 bit; reset 0. -/
  expired : Bool := false
  /-- CHn_LINE_EVT (R70, 03_line_interface.md): 8 bits, dom_to up to cal_refused; reset 0. -/
  evt : BitVec 8 := 0
  /-- CHn_LINE_TIMERS confirm_ms (R52, R70, 03_line_interface.md): 9 bits; reset 0x064. -/
  confirmMs : BitVec 9 := 0x064#9
  /-- CHn_LINE_RXDLY rxdly_ticks, domain L (R66, R70, 03_line_interface.md): 5 bits; reset 0x09. -/
  rxdly : BitVec 5 := 0x09#5
  /-- CHn_LINE_CAL busy, domain L (R68, R70, 03_line_interface.md): 1 bit; reset 0. -/
  calBusy : Bool := false
  /-- CHn_LINE_CAL valid, domain L (R68, R70, 03_line_interface.md): 1 bit; reset 0. -/
  calValid : Bool := false
  /-- CHn_LINE_CAL result_16ths, domain L (R68, R70, 03_line_interface.md): 12 bits; reset 0. -/
  calResult : BitVec 12 := 0
  deriving DecidableEq, Repr

/-- One of the 64 channels. -/
structure Channel where
  fe : FrameEngine := {}
  lq : LaunchQ := {}
  jn : Journal := {}
  slp : Sleep := {}
  wake : Wake := {}
  line : Line := {}
  deriving DecidableEq, Repr

/-- A sentinel, in the VAON domain (03_line_interface.md). -/
structure Sentinel where
  /-- GLB_SENTd_CTRL orphan_ms (R53, R71, 03_line_interface.md): 11 bits; reset 0x0FA. -/
  orphanMs : BitVec 11 := 0x0FA#11
  /-- GLB_SENTd_STAT hb_ok (R53, R71, 03_line_interface.md): 1 bit; reset 0. -/
  hbOk : Bool := false
  /-- GLB_SENTd_STAT inh_req (R63, R71, 03_line_interface.md): 1 bit; reset 1. -/
  inhReq : Bool := true
  /-- GLB_SENTd_STAT ot and CHn_LINE_STAT ot of its channels (R57, R71, 03_line_interface.md): 1 bit; reset 0. -/
  ot : Bool := false
  /-- GLB_SENTd_STAT vline_ok and CHn_LINE_STAT vline_ok of its channels (R56, R71, 03_line_interface.md): 1 bit; reset 0. -/
  vlineOk : Bool := false
  /-- GLB_SENTd_STAT wake_n_seen (R64, R71, 03_line_interface.md): 1 bit; reset 0. -/
  wakeNSeen : Bool := false
  deriving DecidableEq, Repr

/-- A start-up between its steps 1 and 4 (R384, R400). -/
structure Boot where
  /-- Slot B is the one that starts (R384, 16_power_start.md): 1 bit. -/
  slot : Bool
  /-- The sentinel's tick count at the release, against which the offline records are read (R185, 07_sleep_wake.md). -/
  tick : Nat
  deriving DecidableEq, Repr

/-- The GLB block and the power state (16_power_start.md, 17_registers_local.md). -/
structure Glob where
  /-- GLB_ID revision (R18, R419, 17_registers_local.md): 8 bits; reset the revision code. -/
  revision : BitVec 8 := 0x01#8
  /-- GLB_ERR (R419, 17_registers_local.md): 4 bits; reset 0. -/
  err : BitVec 4 := 0
  /-- GLB_ERR_OFFS (R419, 17_registers_local.md): 30 bits; reset 0. -/
  errOffs : BitVec 30 := 0
  /-- GLB_ERR_SRC station (R419, 17_registers_local.md): 10 bits; reset 0. -/
  errStation : BitVec 10 := 0
  /-- GLB_ERR_SRC source (R419, 17_registers_local.md): 2 bits; reset 0b00. -/
  errSource : BitVec 2 := 0
  /-- GLB_ECC_CORR (R420, 17_registers_local.md): 16 bits and SAT; reset 0. -/
  eccCorr : Cnt := {}
  /-- GLB_ECC_UNCORR (R420, 17_registers_local.md): 16 bits and SAT; reset 0. -/
  eccUncorr : Cnt := {}
  /-- GLB_STBY_STAT stby_state, the standby request at the sentinels (R404, R411, 16_power_start.md): 2 bits; reset NONE. -/
  stby : Bool := false
  /-- GLB_STBY_STAT stby_aborted (R406, R411, 16_power_start.md): 1 bit; reset 0. -/
  stbyAborted : Bool := false
  /-- A standby entry waits for the ledger write that goes first (R404, 16_power_start.md): 1 bit; reset 0. -/
  stbyWait : Bool := false
  /-- GLB_RST_CAUSE (R397, R411, R418, 16_power_start.md): 6 bits; reset 0x03 after first power-up. -/
  rstCause : BitVec 6 := 0x03#6
  /-- GLB_START_STAT phase (R400, R411, 16_power_start.md): 3 bits; reset 0b000. -/
  phase : BitVec 3 := 0
  /-- The slot that starts, in steps 2 to 4 (R400, 16_power_start.md): reset none. -/
  boot : Option Boot := none
  /-- Start-up step 6, time acquired, has completed (R400, 16_power_start.md): 1 bit; reset 0. -/
  acquired : Bool := false
  /-- GLB_START_STAT time_ok (R402, R411, 16_power_start.md): 1 bit; reset 0. -/
  timeOk : Bool := false
  /-- GLB_START_STAT no_station (R403, R411, 16_power_start.md): 1 bit; reset 0. -/
  noStation : Bool := false
  /-- GLB_START_STAT ring_ms (R411, 16_power_start.md): 10 bits; reset 0x3FF. -/
  ringMs : BitVec 10 := 0x3FF#10
  /-- GLB_START_STAT service_ms (R411, 16_power_start.md): 10 bits; reset 0x3FF. -/
  serviceMs : BitVec 10 := 0x3FF#10
  /-- GLB_TAG_CTRL pending (R409, R411, 16_power_start.md): 1 bit; reset 0. -/
  tagPending : Bool := false
  /-- GLB_TAG_CTRL persisted (R409, R411, 16_power_start.md): 1 bit; reset 0. -/
  persisted : Bool := false
  /-- GLB_EVT_DEST (R254, 09_ring.md): station and valid, 16 bits; reset 0. -/
  evtDest : BitVec 10 := 0
  /-- GLB_EVT_DEST valid (R254, 09_ring.md): 1 bit; reset 0. -/
  evtValid : Bool := false
  /-- GLB_EVT_PEND, bit c for event code c (R246, R254, 09_ring.md): 11 bits; reset 0. -/
  evtPend : BitVec 11 := 0
  /-- GLB_EVT_MASK (R246, R254, 09_ring.md): 11 bits; reset 0x7FE. -/
  evtMask : BitVec 11 := 0x7FE#11
  /-- GLB_EVT_SEQ next_event (R246, R254, 09_ring.md): 16 bits; reset 0. -/
  evtSeq : BitVec 16 := 0
  /-- The word answered to the last register read (R8, 00_scope.md): 32 bits, the model's own output; reset 0. -/
  rdata : Word := 0
  /-- The words and tags answered to the last CHn_JWIN read (R139, 06_journals.md): the model's own output; reset empty. -/
  rwin : List (Word × BitVec 4) := []
  /-- High-half latches of the 64-bit registers, by the offset of the low half (R5, R416, 17_registers_local.md): 32 bits each; reset 0. -/
  hiLatch : Tab Word := []
  /-- Staged low halves of the 64-bit registers, by the offset of the low half (R5, R416, 17_registers_local.md): 32 bits each; reset 0. -/
  loStage : Tab Word := []
  /-- VAON is up and its power-on reset released (R395, 16_power_start.md): 1 bit; reset 1. -/
  vaonUp : Bool := true
  /-- The lattice die is out of reset (R396, R397, 16_power_start.md): 1 bit; reset 0, held until LATTICE_RESET_RELEASE. -/
  latUp : Bool := false
  /-- A structure load has completed since the release (R126, R185, 06_journals.md): 1 bit; reset 0. -/
  loaded : Bool := false
  /-- Start-up step 7 has taken place (R402, 16_power_start.md): 1 bit; reset 0. -/
  inService : Bool := false
  /-- WAKE_N has been recognised low and not yet returned high (R64, 03_line_interface.md): 1 bit; reset 0. -/
  wakeNLow : Bool := false
  /-- VIO_B is below 1.4 V (R444, 19_electrical_package.md): 1 bit; reset 0. -/
  vioBLow : Bool := false
  /-- Counter that hands each free value its own argument, the model's own; reset 0. -/
  free : Nat := 0
  deriving DecidableEq, Repr

/-- The LAT block (02_lattice_timing.md). -/
structure Lattice where
  /-- LAT_TEMPO tempo_ps (R22, R25, 02_lattice_timing.md): 16 bits; reset 0x0000. -/
  tempo : BitVec 16 := 0
  /-- LAT_TEMPO valid (R22, R25, 02_lattice_timing.md): 1 bit; reset 0. -/
  tempoValid : Bool := false
  /-- LAT_TEMPO_PEAK peak_ps (R25, 02_lattice_timing.md): 16 bits; reset 0x0000. -/
  peak : BitVec 16 := 0
  /-- LAT_CLKSTAT ref_sel (R25, R30, 02_lattice_timing.md): 2 bits; reset 0b00 REFCLK. -/
  refSel : BitVec 2 := 0
  /-- LAT_CLKSTAT sys_lock (R25, 02_lattice_timing.md): 1 bit; reset 0. -/
  sysLock : Bool := false
  /-- LAT_CLKSTAT slow_seen (R24, R25, 02_lattice_timing.md): 1 bit; reset 0. -/
  slowSeen : Bool := false
  /-- LAT_CLKSTAT ref_switched (R25, R31, 02_lattice_timing.md): 1 bit; reset 0. -/
  refSwitched : Bool := false
  /-- LAT_VSTAT econ (R422, 17_registers_local.md): 1 bit; reset 0. -/
  econ : Bool := false
  /-- LAT_VSTAT econ_seen (R422, 17_registers_local.md): 1 bit; reset 0. -/
  econSeen : Bool := false
  /-- The raw counter, modulo 128, at the LTX edges that coincide with a T edge (R28, R202, 02_lattice_timing.md): 7 bits; reset DESIGN CHOICE 0. -/
  coinc : BitVec 7 := 0
  /-- The ring has trained since reset (R30, 02_lattice_timing.md): 1 bit; reset 0. -/
  trained : Bool := false
  /-- A ring side has failed and the topology that follows is not yet learnt (R30, R31, 02_lattice_timing.md): 1 bit; reset 0. -/
  learning : Bool := false
  deriving DecidableEq, Repr

/-- The SRAM of 16 MiB (R255, R427) with the END marks and the error state of its words. -/
structure Sram where
  /-- SRAM bytes by byte offset, an unlisted byte 0x00 (R427, 18_registers_fabric.md): 16 MiB; reset DESIGN CHOICE 0x00. -/
  bytes : List Host.Cell := []
  /-- END marks by word address (R127, 06_journals.md): 1 bit a word; reset DESIGN CHOICE 0. -/
  ends : Tab Bool := []
  /-- Bits in error of a stored word: [31:0] payload, [32] END, [39:33] check bits (R150, 06_journals.md): 40 bits a word; reset DESIGN CHOICE 0. -/
  flips : Tab (BitVec 40) := []
  deriving DecidableEq, Repr

/-- A committed increment on its way to its T edge (R192). -/
structure Increment where
  dOff : BitVec 48
  dRate : Option (BitVec 41)
  deriving DecidableEq, Repr

/-- A recorded generation, TIM_HISTg (R198). -/
structure Hist where
  /-- TIM_HISTg boundary (R198, R214, 08_fabric_time.md): 64 bits; reset 0. -/
  boundary : Raw := 0
  /-- TIM_HISTg rate (R198, R214, 08_fabric_time.md): 48 bits; reset 0x0640_0000_0000 for g = 0, else 0. -/
  rate : BitVec 48 := 0
  /-- TIM_HISTg offset, integer ns and fraction (R198, R214, 08_fabric_time.md): 80 bits; reset 0. -/
  offset : BitVec 80 := 0
  /-- TIM_HISTg valid (R198, R214, 08_fabric_time.md): 1 bit; reset 1 for g = 0, else 0. -/
  valid : Bool := false
  deriving DecidableEq, Repr

/-- A beacon estimate, TIM_CW_EST or TIM_CCW_EST (R207). -/
structure Est where
  /-- err (R207, R214, 08_fabric_time.md): 48 bits; reset 0. -/
  err : BitVec 48 := 0
  /-- valid (R207, R214, 08_fabric_time.md): 1 bit; reset 0. -/
  valid : Bool := false
  /-- wrapped, also cw_wrapped or ccw_wrapped of TIM_ROUTE_CHANGED (R207, R210, R214, 08_fabric_time.md): 1 bit; reset 0. -/
  wrapped : Bool := false
  /-- incomplete (R207, R214, 08_fabric_time.md): 1 bit; reset 0. -/
  incomplete : Bool := false
  /-- err_range (R207, R214, 08_fabric_time.md): 1 bit; reset 0. -/
  range : Bool := false
  /-- seq (R207, R214, 08_fabric_time.md): 16 bits; reset 0. -/
  seq : BitVec 16 := 0
  /-- hops (R207, R214, 08_fabric_time.md): 10 bits; reset 0. -/
  hops : BitVec 10 := 0
  deriving DecidableEq, Repr

/-- A write held while the converter is busy (R199). -/
inductive ConvWrite where
  | ctrl (v : Word)
  | frac (v : Word)
  | low (v : Word)
  | start (v : Word)
  deriving DecidableEq, Repr

/-- The time unit (08_fabric_time.md). -/
structure TimeUnit where
  /-- TIM_RAW, the raw counter (R189, R214, 08_fabric_time.md): 64 bits; reset 0. -/
  raw : Raw := 0
  /-- TIM_CTRL servo_owner, 1 host (R196, R214, 08_fabric_time.md): 1 bit; reset 0. -/
  servoHost : Bool := false
  /-- TIM_CTRL master (R204, R214, 08_fabric_time.md): 1 bit; reset 0. -/
  master : Bool := false
  /-- TIM_CTRL pair_inc (R194, R214, 08_fabric_time.md): 1 bit; reset 0. -/
  pairInc : Bool := false
  /-- TIM_STAT gen (R193, R214, 08_fabric_time.md): 4 bits; reset 0. -/
  gen : BitVec 4 := 0
  /-- TIM_STAT rate_staged and the staged rate increment (R194, R214, 08_fabric_time.md): 41 bits; reset none. -/
  staged : Option (BitVec 41) := none
  /-- TIM_STAT master_lost (R212, R214, 08_fabric_time.md): 1 bit; reset 0. -/
  masterLost : Bool := false
  /-- Raw value of the last BEACON_SEND (R204, 08_fabric_time.md): 64 bits; reset none. -/
  beaconTx : Option Raw := none
  /-- Raw value of the last PDELAY_REQ_SEND of each lane in its training, East, West, mirror (R209, 08_fabric_time.md): 64 bits; reset none. -/
  pdAt : Vector (Option Raw) 3 := Vector.replicate 3 none
  /-- Raw value of the last beacon from the station in TIM_MASTER, or of the master change since (R212, 08_fabric_time.md): 64 bits; reset 0. -/
  beaconAt : Raw := 0
  /-- TIM_STAT inc_refused, owner_refused, foreign_beacon, stale_seen (R214, 08_fabric_time.md): 4 bits; reset 0. -/
  evt : BitVec 4 := 0
  /-- TIM_MASTER station (R212, R214, 08_fabric_time.md): 10 bits; reset 0. -/
  masterSt : BitVec 10 := 0
  /-- TIM_MASTER_FLAGS flags (R205, R214, 08_fabric_time.md): 4 bits; reset 0. -/
  flags : BitVec 4 := 0
  /-- TIM_MASTER_FLAGS utc_offset (R205, R214, 08_fabric_time.md): 16 bits; reset 0. -/
  utc : BitVec 16 := 0
  /-- TIM_BCN_CFG beacon_ms (R204, R214, 08_fabric_time.md): 10 bits; reset 0x064. -/
  beaconMs : BitVec 10 := 0x064#10
  /-- TIM_BCN_CFG loss_n (R212, R214, 08_fabric_time.md): 4 bits; reset 0x4. -/
  lossN : BitVec 4 := 0x4#4
  /-- TIM_BCN_CFG pdelay_ms (R209, R214, 08_fabric_time.md): 10 bits; reset 0x064. -/
  pdelayMs : BitVec 10 := 0x064#10
  /-- TIM_ROUTE_CHANGED route_changed (R210, R214, 08_fabric_time.md): 1 bit; reset 0. -/
  routeChanged : Bool := false
  /-- TIM_NOW_LO and TIM_NOW_HI (R191, R214, 08_fabric_time.md): 64 bits latched; reset 0. -/
  nowNs : BitVec 64 := 0
  /-- TIM_OFFS_LO and TIM_OFFS_HI (R191, R214, 08_fabric_time.md): 64 bits latched; reset 0. -/
  offsNs : BitVec 64 := 0
  /-- TIM_RATE (R190, R214, 08_fabric_time.md): 48 bits; reset 0x0640_0000_0000. -/
  rate : BitVec 48 := 0x064000000000#48
  /-- The offset (R190, 08_fabric_time.md): 80 bits; reset 0. -/
  offset : BitVec 80 := 0
  /-- TIM_OFFS_INC (R192, R214, 08_fabric_time.md): 48 bits; reset 0. -/
  offsInc : BitVec 48 := 0
  /-- TIM_RATE_INC (R192, R214, 08_fabric_time.md): 41 bits; reset 0. -/
  rateInc : BitVec 41 := 0
  /-- Committed increments not yet at their T edge, oldest first (R192, 08_fabric_time.md); reset empty. -/
  incs : List Increment := []
  /-- The resident servo's error e_dir - skew_dir of the latest beacon it could use, and dir, true for CW (R208, R211, 08_fabric_time.md):
  signed Q32.16 ns, 48 bits; reset none. -/
  servoErr : Option (BitVec 49 × Bool) := none
  /-- Raw value at the resident servo's last committed generation (R196, 08_fabric_time.md): 64 bits; reset none. -/
  servoAt : Option Raw := none
  /-- TIM_CONV_CTRL gen (R199, R214, 08_fabric_time.md): 4 bits; reset 0. -/
  convGen : BitVec 4 := 0
  /-- TIM_CONV_CTRL by_gen (R199, R214, 08_fabric_time.md): 1 bit; reset 1. -/
  byGen : Bool := true
  /-- TIM_CONV_CTRL inverse (R199, R214, 08_fabric_time.md): 1 bit; reset 0. -/
  inverse : Bool := false
  /-- TIM_CONV_CTRL busy (R199, R214, 08_fabric_time.md): 1 bit; reset 0. -/
  convBusy : Bool := false
  /-- TIM_CONV_CTRL stale (R199, R214, 08_fabric_time.md): 1 bit; reset 0. -/
  stale : Bool := false
  /-- TIM_CONV_CTRL gen_used (R199, R214, 08_fabric_time.md): 4 bits; reset 0. -/
  genUsed : BitVec 4 := 0
  /-- TIM_CONV_IN_FRAC (R199, R214, 08_fabric_time.md): 16 bits; reset 0. -/
  inFrac : BitVec 16 := 0
  /-- TIM_CONV_IN (R199, R214, 08_fabric_time.md): 64 bits; reset 0. -/
  convIn : BitVec 64 := 0
  /-- TIM_CONV_OUT, fraction (R199, R214, 08_fabric_time.md): 16 bits; reset 0. -/
  outFrac : BitVec 16 := 0
  /-- TIM_CONV_OUT, value (R199, R214, 08_fabric_time.md): 64 bits; reset 0. -/
  outVal : BitVec 64 := 0
  /-- The result of the conversion in progress: generation used, value and fraction, or none when it fails (R199, 08_fabric_time.md); reset none. -/
  convRes : Option (BitVec 4 × BitVec 80) := none
  /-- Writes held while the converter is busy, oldest first (R199, 08_fabric_time.md); reset empty. -/
  convHeld : List ConvWrite := []
  /-- TIM_CW_EST (R207, R214, 08_fabric_time.md): see Est; reset 0. -/
  cw : Est := {}
  /-- TIM_CCW_EST (R207, R214, 08_fabric_time.md): see Est; reset 0. -/
  ccw : Est := {}
  /-- TIM_SKEW skew_cw (R208, R214, 08_fabric_time.md): 48 bits; reset 0. -/
  skew : BitVec 48 := 0
  /-- TIM_SKEW valid (R208, R214, 08_fabric_time.md): 1 bit; reset 0. -/
  skewValid : Bool := false
  /-- TIM_PD_WEST delay (R209, R214, 08_fabric_time.md): 32 bits; reset 0. -/
  pdWest : BitVec 32 := 0
  /-- TIM_PD_EAST delay (R209, R214, 08_fabric_time.md): 32 bits; reset 0. -/
  pdEast : BitVec 32 := 0
  /-- TIM_PD_STAT west_valid (R209, R214, 08_fabric_time.md): 1 bit; reset 0. -/
  pdWestOk : Bool := false
  /-- TIM_PD_STAT east_valid (R209, R214, 08_fabric_time.md): 1 bit; reset 0. -/
  pdEastOk : Bool := false
  /-- The last PDELAY_REQ of each lane, East, West, mirror: its seq and egress raw (R209, 08_fabric_time.md); reset none. -/
  pdReq : Vector (Option (BitVec 16 × Raw)) 3 := Vector.replicate 3 none
  /-- TIM_HISTg (R198, R214, 08_fabric_time.md): 16 records; reset g = 0 valid with the reset rate. -/
  hist : Vector Hist 16 := (Vector.replicate 16 {}).set 0 ⟨0, 0x064000000000#48, 0, true⟩
  deriving DecidableEq, Repr

/-- The states of a lane port (R252). -/
inductive PortSt where
  | down | training | up | miswired
  deriving DecidableEq, Repr

/-- A lane port (09_ring.md). -/
structure LanePort where
  /-- RNG_PORTx_STAT state (R227, R252, 09_ring.md): 2 bits; reset DOWN. -/
  st : PortSt := .down
  /-- RNG_PORTx_STAT phi (R228, R252, 09_ring.md): 2 bits; reset 0. -/
  phi : BitVec 2 := 0
  /-- RNG_PORTx_STAT u (R228, R252, 09_ring.md): 7 bits, 0 to 65; reset 0. -/
  u : BitVec 7 := 0
  /-- RNG_PORTx_STAT block_lock, also erx_lock, wrx_lock, mrx_lock of LAT_CLKSTAT (R29, R227, R252, 09_ring.md): 1 bit; reset 0. -/
  blockLock : Bool := false
  /-- RNG_PORTx_STAT rx_los (R252, 09_ring.md): 1 bit; reset 0. -/
  rxLos : Bool := false
  /-- RNG_PORTx_STAT tx_fault (R252, 09_ring.md): 1 bit; reset 0. -/
  txFault : Bool := false
  /-- RNG_PORTx_STAT mod_abs (R252, 09_ring.md): 1 bit; reset 0. -/
  modAbs : Bool := false
  /-- RNG_PORTx_STAT span_down_rx (R252, 09_ring.md): 1 bit; reset 0. -/
  spanDownRx : Bool := false
  /-- RNG_PORTx_STAT neighbour (R227, R252, 09_ring.md): 10 bits; reset 0. -/
  nbr : BitVec 10 := 0
  /-- RNG_PORTx_STAT neighbour_valid (R227, R252, 09_ring.md): 1 bit; reset 0. -/
  nbrValid : Bool := false
  /-- Φ and u measured in this training (R227, 09_ring.md): 1 bit; reset 0. -/
  phiDone : Bool := false
  /-- TRAIN cells of the opposite side received in this training (R227, 09_ring.md): 2 bits; reset 0. -/
  trains : BitVec 2 := 0
  /-- TRAIN cells that report the neighbour UP while the side is wrapped (R236, 09_ring.md): 2 bits; reset 0. -/
  unwraps : BitVec 2 := 0
  /-- SPAN_DOWN cells received in succession (R231, 09_ring.md): 2 bits; reset 0. -/
  spanDowns : BitVec 2 := 0
  /-- The lane carries SPAN_DOWN in every cell time that no other cell takes (R232, R236, 09_ring.md): 1 bit; reset 0. -/
  spanDownTx : Bool := false
  /-- How far the cell time of the SPAN_DOWN cell in progress has come, in 1/100 of a T tick: a cell time is 10 LTX cycles, 10.24 ticks (R218,
  R219, R232, 09_ring.md): 10 bits; reset 0. -/
  spanPhase : BitVec 10 := 0
  /-- The seq of the SPAN_DOWN cell in progress (R219, R232, 09_ring.md): 16 bits; reset 0. -/
  spanSeq : BitVec 16 := 0
  /-- TX_DISABLE pin of the lane, 1 asserted (R227, R390, 09_ring.md): 1 bit; reset 1. -/
  txDisable : Bool := true
  /-- RNG_PORTx_CRC_ERR (R224, R252, 09_ring.md): 16 bits and SAT; reset 0. -/
  crcErr : Cnt := {}
  /-- RNG_PORTx_FRAMING (R221, R252, 09_ring.md): 16 bits and SAT; reset 0. -/
  framing : Cnt := {}
  /-- RNG_PORTx_DROP_FULL (R243, R252, 09_ring.md): 16 bits and SAT; reset 0. -/
  dropFull : Cnt := {}
  /-- RNG_PORTx_LINK_FAIL (R231, R252, 09_ring.md): 16 bits and SAT; reset 0. -/
  linkFail : Cnt := {}
  deriving DecidableEq, Repr

/-- The copied pages of an SFP+ module, RNG_SFPx (R217). -/
structure Sfp where
  /-- RNG_SFPx a0 (R217, R252, 09_ring.md): bytes 0 to 95; reset 0. -/
  a0 : List Byte := []
  /-- RNG_SFPx a2 (R217, R252, 09_ring.md): bytes 96 to 107; reset 0. -/
  a2 : List Byte := []
  /-- RNG_SFPx a0_valid (R252, 09_ring.md): 1 bit; reset 0. -/
  a0Valid : Bool := false
  /-- RNG_SFPx a2_valid (R252, 09_ring.md): 1 bit; reset 0. -/
  a2Valid : Bool := false
  /-- Raw value of the last copy of A2h; a2_valid reads 0 from 2 s after it (R217, R252, 09_ring.md): 64 bits; reset 0. -/
  a2At : Raw := 0
  /-- RNG_SFPx i2c_err (R252, 09_ring.md): 1 bit; reset 0. -/
  i2cErr : Bool := false
  deriving DecidableEq, Repr

/-- A map entry, RNG_MAPs (R234). -/
structure MapEnt where
  /-- cw_hops (R234, R252, 09_ring.md): 10 bits; reset 0. -/
  cwHops : BitVec 10 := 0
  /-- ccw_hops (R234, R252, 09_ring.md): 10 bits; reset 0. -/
  ccwHops : BitVec 10 := 0
  /-- cw_ok (R234, R252, 09_ring.md): 1 bit; reset 0. -/
  cwOk : Bool := false
  /-- ccw_ok (R234, R252, 09_ring.md): 1 bit; reset 0. -/
  ccwOk : Bool := false
  /-- cw_hops was measured by a TOPO's arrival (R234, 09_ring.md): 1 bit; reset 0. -/
  cwSeen : Bool := false
  /-- ccw_hops was measured by a TOPO's arrival (R234, 09_ring.md): 1 bit; reset 0. -/
  ccwSeen : Bool := false
  /-- host (R234, R252, 09_ring.md): 1 bit; reset 0. -/
  host : Bool := false
  /-- collision (R230, R252, 09_ring.md): 1 bit; reset 0. -/
  collision : Bool := false
  /-- epoch (R239, R252, 09_ring.md): 8 bits; reset 0. -/
  epoch : BitVec 8 := 0
  /-- East reported DOWN by that station's last TOPO (R234, 09_ring.md): 1 bit; reset 0. -/
  eastDown : Bool := false
  /-- West reported DOWN by that station's last TOPO (R234, 09_ring.md): 1 bit; reset 0. -/
  westDown : Bool := false
  /-- Raw value of the last TOPO that refreshed the entry (R234, 09_ring.md): 64 bits; reset 0. -/
  fresh : Raw := 0
  deriving DecidableEq, Repr

/-- A pair entry, RNG_PAIRp (R238). -/
structure PairEnt where
  /-- active (R238, R252, 09_ring.md): 10 bits; reset 0. -/
  active : BitVec 10 := 0
  /-- shadow (R238, R252, 09_ring.md): 10 bits; reset 0. -/
  shadow : BitVec 10 := 0
  /-- epoch (R239, R252, 09_ring.md): 8 bits; reset 0. -/
  epoch : BitVec 8 := 0
  /-- valid (R252, 09_ring.md): 1 bit; reset 0. -/
  valid : Bool := false
  /-- castled (R238, R252, 09_ring.md): 64 bits; reset 0. -/
  castled : BitVec 64 := 0
  deriving DecidableEq, Repr

/-- The join states (R229). -/
inductive JoinSt where
  | off | training | joining | joined | collision
  deriving DecidableEq, Repr

/-- Why this station has sent a request of its own (R244, R292, R374). -/
inductive ReqWhy where
  /-- part of an NSP READ of the service port -/
  | nspRead
  /-- part of an NSP WRITE of the service port -/
  | nspWrite
  /-- the ring check of the pair unit -/
  | ringCheck
  /-- the reads of R290 that form a pair -/
  | formRead
  /-- a request of the housekeeper's own -/
  | other
  deriving DecidableEq, Repr

/-- An outstanding request of this station, one of 16 tags (R244). -/
structure OutReq where
  seq : BitVec 16
  cell : RCell
  due : Raw
  why : ReqWhy
  got : List Word
  /-- the response cells taken so far: part index and words (R240) -/
  parts : List (Nat × List Word)
  deriving DecidableEq, Repr

/-- A finished request of this station: its seq, status and data (R241, R244). -/
structure ReqDone where
  seq : BitVec 16
  status : BitVec 4
  data : List Word
  deriving DecidableEq, Repr

/-- The ring unit (09_ring.md). -/
structure Ring where
  /-- RNG_CTRL ring_en (R227, R252, 09_ring.md): 1 bit; reset 0. -/
  en : Bool := false
  /-- RNG_STAT station (R229, R252, 09_ring.md): 10 bits; reset 0. -/
  station : BitVec 10 := 0
  /-- A station number is in use (R376, R403, R410, 15_service_update.md): 1 bit; reset 0. -/
  numbered : Bool := false
  /-- RNG_STAT join_state (R229, R252, 09_ring.md): 3 bits; reset OFF. -/
  join : JoinSt := .off
  /-- Raw value at entry into the join state (R229, 09_ring.md): 64 bits; reset 0. -/
  joinRaw : Raw := 0
  /-- RNG_STAT wrap_east (R232, R252, 09_ring.md): 1 bit; reset 0. -/
  wrapEast : Bool := false
  /-- RNG_STAT wrap_west (R232, R252, 09_ring.md): 1 bit; reset 0. -/
  wrapWest : Bool := false
  /-- RNG_STAT epoch, the station role epoch (R239, R252, 09_ring.md): 8 bits; reset 0. -/
  epoch : BitVec 8 := 0
  /-- RNG_TMO tmo_ms (R244, R252, 09_ring.md): 8 bits; reset 0x02. -/
  tmo : BitVec 8 := 0x02#8
  /-- RNG_ERR bad_type, hop_exceeded, role_refused_final, no_target (R252, 09_ring.md): 4 bits; reset 0. -/
  err : BitVec 4 := 0
  /-- RNG_SEQ next_seq (R219, R252, 09_ring.md): 16 bits; reset 0. -/
  nextSeq : BitVec 16 := 0
  /-- The join tokens of the last two OWNER_RESET or TOPO cells sent (R229, 09_ring.md): 32 bits each; reset none. -/
  tokens : List (BitVec 32) := []
  /-- In JOINED the first TOPO has still to leave by the East add port (R229, 09_ring.md): 1 bit; reset 0. -/
  topoEast : Bool := false
  /-- In JOINED the first TOPO has still to leave by the West add port (R229, 09_ring.md): 1 bit; reset 0. -/
  topoWest : Bool := false
  /-- East lane port (R252, 09_ring.md): see LanePort. -/
  east : LanePort := {}
  /-- West lane port (R252, 09_ring.md): see LanePort. -/
  west : LanePort := {}
  /-- Mirror lane port (R252, 09_ring.md): see LanePort. -/
  mirror : LanePort := {}
  /-- RNG_SFPx (R252, 09_ring.md): East, West, mirror. -/
  sfp : Vector Sfp 3 := Vector.replicate 3 {}
  /-- RNG_MAPs by station (R234, R252, 09_ring.md): 1 024 entries; reset 0. -/
  maps : Tab MapEnt := []
  /-- RNG_PAIRp by pair (R238, R252, 09_ring.md): 512 entries; reset 0. -/
  pairs : Tab PairEnt := []
  /-- For each source the seq of the last broadcast delivered (R226, 09_ring.md): 16 bits; reset none. -/
  seen : Tab (Option (BitVec 16)) := []
  /-- Drop queue of the East port, oldest first (R243, 09_ring.md): 64 cells; reset empty. -/
  dropEast : List RCell := []
  /-- Drop queue of the West port, oldest first (R243, 09_ring.md): 64 cells; reset empty. -/
  dropWest : List RCell := []
  /-- Cells that wait for the East add port, with their requesters (R271, 10_concourse.md); reset empty. -/
  outEast : List (Fin 78 × RCell) := []
  /-- Cells that wait for the West add port, with their requesters (R271, 10_concourse.md); reset empty. -/
  outWest : List (Fin 78 × RCell) := []
  /-- Egress buffer of the East add port (R271, 10_concourse.md): one cell; reset empty. -/
  bufEast : Option RCell := none
  /-- Egress buffer of the West add port (R271, 10_concourse.md): one cell; reset empty. -/
  bufWest : Option RCell := none
  /-- The last cell put on the East lane, but for the SPAN_DOWN cells of a failed side (R218, 09_ring.md): the lane's output; reset none. -/
  laneEast : Option RCell := none
  /-- The last cell put on the West lane, but for the SPAN_DOWN cells of a failed side (R218, 09_ring.md): the lane's output; reset none. -/
  laneWest : Option RCell := none
  /-- The last span-local cell put on the mirror lane (R215, R282, 11_pair.md): the lane's output; reset none. -/
  laneMirror : Option RCell := none
  /-- Outstanding requests of this station, 16 tags (R244, 09_ring.md); reset empty. -/
  reqs : List OutReq := []
  /-- Returned pair cells that wait up to 2 ms for RNG_PAIRp to hold the new epoch: the cell, the epoch, the raw value at its return (R239,
  09_ring.md); reset empty. -/
  retry : List (RCell × BitVec 8 × Raw) := []
  /-- The last request of this station that finished (R241, 09_ring.md): the model's own output; reset none. -/
  done : Option ReqDone := none
  deriving DecidableEq, Repr

/-- A fabric lock (R247, R253). -/
structure Lock where
  /-- LCKi_OWN owner (R247, R253, 09_ring.md): 10 bits; reset 0. -/
  owner : BitVec 10 := 0
  /-- LCKi_OWN held (R247, R253, 09_ring.md): 1 bit; reset 0. -/
  held : Bool := false
  /-- LCKi_OWN broken (R247, R249, R253, 09_ring.md): 1 bit; reset 1. -/
  broken : Bool := true
  /-- LCKi_LEASE lease_ms (R248, R253, 09_ring.md): 16 bits; reset 0. -/
  leaseMs : BitVec 16 := 0
  /-- The lease end (R248, 09_ring.md): 64 bits; reset 0. -/
  leaseEnd : Raw := 0
  /-- LCKi_BROKEN (R247, R253, 09_ring.md): 16 bits and SAT; reset 0. -/
  cnt : Cnt := {}
  /-- LCKi_OP result (R247, R253, 09_ring.md): 4 bits; reset 0x0 NONE. -/
  result : BitVec 4 := 0
  /-- LCKi_OP lease (R253, R432, 09_ring.md): 16 bits; reset 0. -/
  opLease : BitVec 16 := 0
  deriving DecidableEq, Repr

/-- A requester of the concourse and its part (R255, R462). -/
abbrev Requester := Fin 78 × ConPart

/-- The arbiter of one resource (10_concourse.md). -/
structure Arbiter where
  /-- CON_RESr_STAT owner and owned (R258, R276, 10_concourse.md): 8 bits; reset not owned. -/
  owner : Option Requester := none
  /-- The decided next owner (R259, R266, 10_concourse.md); reset none. -/
  next : Option Requester := none
  /-- CON_RESr_STAT slot_ptr (R261, R276, 10_concourse.md): 8 bits; reset 0. -/
  slotPtr : BitVec 8 := 0
  /-- The pending queue, CON_RESr_STAT pending and pend words (R264, R276, 10_concourse.md): 78 places; reset empty. -/
  pending : List Requester := []
  /-- Parts of channel units that wait inside their unit while a sibling part has the resource or its request (R462, 10_concourse.md);
  reset empty. -/
  inside : List Requester := []
  /-- The staged tables are to be taken at the next decision (R263, 10_concourse.md): 1 bit; reset 0. -/
  takeStaged : Bool := false
  deriving DecidableEq, Repr

/-- The kinds of work for which a unit waits until it has every resource that it takes (R256, R257). -/
inductive ConWork where
  /-- the request at the front of a drop queue -/
  | drop
  /-- a host's access to this module's own window -/
  | access
  /-- a READ or WRITE of the service protocol -/
  | nsp
  /-- a mirror cell that has arrived -/
  | mirror
  /-- the mirrored items of a resync -/
  | resync
  /-- a frame of the sleep ballot -/
  | ballot
  /-- a TXQ at its commit edge -/
  | commit
  /-- the structure loader -/
  | loader
  deriving DecidableEq, Repr

/-- Work of a unit that waits, and the resources it takes, in rank order (R256, R257). -/
structure ConWait where
  who : Requester
  work : ConWork
  needs : List ResNo
  deriving DecidableEq, Repr

/-- A host's access to this module's own window, by the register path or by the command of its own that the table gives it (R8, R256), or
the commit that a stopped TXQ has left behind (R335). -/
inductive Access where
  | read (src : Src) (a : Nat)
  | write (src : Src) (a : Nat) (v : Word)
  | pop (n : ChanNo)
  | window (n : ChanNo) (count : Nat)
  | lqWin (n : ChanNo) (w : Nat) (v : Word)
  | commit (n : ChanNo) (i : LqIdx)
  | txq (n : ChanNo) (i : LqIdx)
  | mem (a : Nat) (w : Word)
  | lock (src : Src) (i : LockNo) (op : Nat) (lease : BitVec 16)
  deriving DecidableEq, Repr

/-- The concourse (10_concourse.md). -/
structure Concourse where
  /-- CON_FREEZE (R265, R276, 10_concourse.md): 20 bits; reset 0. -/
  freeze : BitVec 20 := 0
  /-- The loader's own freeze; CON_FROZEN is the two together (R265, R276, 10_concourse.md): 20 bits; reset 0. -/
  loaderFreeze : BitVec 20 := 0
  /-- CON_FAULT requester (R267, R276, 10_concourse.md): 7 bits; reset 0. -/
  faultQ : BitVec 7 := 0
  /-- CON_FAULT held (R267, R276, 10_concourse.md): 5 bits; reset 0. -/
  faultHeld : BitVec 5 := 0
  /-- CON_FAULT requested (R267, R276, 10_concourse.md): 5 bits; reset 0. -/
  faultReq : BitVec 5 := 0
  /-- CON_FAULT fault_seen (R268, R276, 10_concourse.md): 1 bit; reset 0. -/
  faultSeen : Bool := false
  /-- CON_FAULT_CNT (R267, R276, 10_concourse.md): 16 bits and SAT; reset 0. -/
  faultCnt : Cnt := {}
  /-- CON_STARVE (R273, R276, 10_concourse.md): 64 bits; reset 0. -/
  starve : BitVec 64 := 0
  /-- The arbiters of the 20 resources (R256, 10_concourse.md): see Arbiter. -/
  res : Vector Arbiter 20 := Vector.replicate 20 {}
  /-- Slot tables in force, entry 256r + e (R261, R276, 10_concourse.md): 7 bits each; reset 0x7F OPEN. -/
  slots : Tab (BitVec 7) := []
  /-- Staged slot tables (R263, 10_concourse.md): as slots. -/
  slotsNew : Tab (BitVec 7) := []
  /-- Background rankings in force, position of requester q at 128r + q, held as difference from q (R262, R276, 10_concourse.md): 7 bits each; reset position q. -/
  ranks : Tab (BitVec 7) := []
  /-- Staged background rankings (R263, 10_concourse.md): as ranks. -/
  ranksNew : Tab (BitVec 7) := []
  /-- Slot tables as released, which a resource with takeStaged takes at its next decision (R263, 10_concourse.md): as slots. -/
  slotsDue : Tab (BitVec 7) := []
  /-- Background rankings as released (R263, 10_concourse.md): as ranks. -/
  ranksDue : Tab (BitVec 7) := []
  /-- What waits for a resource beside the journal writers, the launch-queue fetches and the memory ports, and for which (R257,
  10_concourse.md): see ConWait; reset empty. -/
  waits : List ConWait := []
  /-- The host's accesses that wait for their bank or for the lock table, oldest first (R256, R257, 10_concourse.md): see Access; reset
  empty. -/
  access : List Access := []
  deriving DecidableEq, Repr

/-- The roles of a pair member (R303). -/
inductive PairRole where
  | unpaired | active | shadow | forming
  deriving DecidableEq, Repr

/-- The states of a pair (R303). -/
inductive PairSt where
  | inStep | resync | partnerLost | splitSuspect | mismatch | isolated
  deriving DecidableEq, Repr

/-- A mirror cell on its way out (R282, R284); its payload is what the command of the same name takes. -/
inductive MirMsg where
  | heartbeat (m : HbMsg)
  | lqWin (n : ChanNo) (i : LqIdx) (w : Nat) (value : Word)
  | lqState (n : ChanNo) (i : LqIdx) (st : LqSt) (cancel : Bool) (late : Bool) (committed : Bool)
  | fc (n : ChanNo) (tec : BitVec 9) (rec : BitVec 8) (st : FcSt)
  | jpos (n : ChanNo) (op : JposOp) (time : BitVec 80)
  | time (rate : BitVec 48) (offset : BitVec 80) (gen : BitVec 4) (boundary : Raw)
  | ballot (n : ChanNo) (phase : BalPh) (number : BitVec 8) (windowEnd : Raw) (descentEnd : Raw) (sleepOrder : Bool)
  | holdlog (n : ChanNo) (i : Nat) (e : HoldEnt)
  | context (k : EngNo) (c : CtxNo) (regs : Vector Word 16)
  | lock (i : LockNo) (owner : BitVec 10) (held : Bool) (leaseMs : BitVec 16) (leaseEnd : Raw) (broken : Bool)
  | epoch (pairEpoch : BitVec 8) (stEpoch : BitVec 8) (castled : BitVec 64)
  | token (channels : BitVec 64) (why : TokenWhy)
  | resync (no : BitVec 8)
  deriving DecidableEq, Repr

/-- A peer-delay cell of the mirror lane that waits to leave (R209, R282): a request, or a response with the arrival of its request and that
request's seq. -/
inductive DelayCell where
  | request
  | response (arrival : BitVec 64) (seq : BitVec 16)
  deriving DecidableEq, Repr

/-- A mirror cell as it stands on the mirror lane (R282): its type code, the unit in dest, the seq of its direction, its payload. -/
structure MirCell where
  ctype : BitVec 6
  dest : BitVec 10
  seq : BitVec 16
  msg : MirMsg
  deriving DecidableEq, Repr

/-- The pair unit (11_pair.md). -/
structure Pair where
  /-- PAIR_STAT role (R290, R303, 11_pair.md): 2 bits; reset UNPAIRED. -/
  role : PairRole := .unpaired
  /-- PAIR_STAT pair_state (R283, R303, 11_pair.md): 3 bits; reset IN_STEP (0b000). -/
  st : PairSt := .inStep
  /-- PAIR_STAT hb_ok (R281, R303, 11_pair.md): 1 bit; reset 0. -/
  hbOk : Bool := false
  /-- PAIR_STAT pair_epoch (R239, R303, 11_pair.md): 8 bits; reset 0. -/
  epoch : BitVec 8 := 0
  /-- PAIR_STAT pair (R277, R303, 11_pair.md): 9 bits; reset 0. -/
  number : BitVec 9 := 0
  /-- PAIR_PARTNER station (R277, R303, 11_pair.md): 10 bits; reset 0. -/
  partner : BitVec 10 := 0
  /-- PAIR_CFG check_10us (R292, R303, 11_pair.md): 7 bits; reset 0x28. -/
  check10us : BitVec 7 := 0x28#7
  /-- PAIR_CFG pos_tol_ns (R288, R303, 11_pair.md): 16 bits; reset 0x03E8. -/
  posTol : BitVec 16 := 0x03E8#16
  /-- PAIR_CHCASTLE_EN (R299, R303, 11_pair.md): 64 bits; reset 0. -/
  chCastleEn : BitVec 64 := 0
  /-- PAIR_HELD of a paired member (R278, R303, 11_pair.md): 64 bits; reset 0. -/
  held : BitVec 64 := 0
  /-- PAIR_FCLOCAL (R287, R303, 11_pair.md): 64 bits; reset 0. -/
  fcLocal : BitVec 64 := 0
  /-- The partner's PAIR_FCLOCAL as its last HEARTBEAT or TOKEN gave it (R287, R299, R300, 11_pair.md): 64 bits; reset 0. -/
  peerLocal : BitVec 64 := 0
  /-- The castled map, channels held by the shadow (R278, R302, 11_pair.md): 64 bits; reset 0. -/
  castled : BitVec 64 := 0
  /-- PAIR_RESULT code (R303, 11_pair.md): 4 bits; reset 0x0 NONE. -/
  resCode : BitVec 4 := 0
  /-- PAIR_RESULT whole (R303, 11_pair.md): 1 bit; reset 0. -/
  resWhole : Bool := false
  /-- PAIR_RESULT channel (R303, 11_pair.md): 6 bits; reset 0. -/
  resChan : BitVec 6 := 0
  /-- PAIR_EVT, promoted up to isolated (R303, 11_pair.md): 9 bits; reset 0. -/
  evt : BitVec 9 := 0
  /-- PAIR_MIR_DELAY (R284, R303, 11_pair.md): 32 bits; reset 0. -/
  mirDelay : BitVec 32 := 0
  /-- PAIR_RAWDIFF (R303, R461, 11_pair.md): 64 bits signed Q48.16; reset 0. -/
  rawDiff : BitVec 64 := 0
  /-- PAIR_HB_LOSS (R281, R303, 11_pair.md): 16 bits and SAT; reset 0. -/
  hbLoss : Cnt := {}
  /-- PAIR_RESYNC_CNT (R283, R303, 11_pair.md): 16 bits and SAT; reset 0. -/
  resyncCnt : Cnt := {}
  /-- The plan digest of this member (R277, 11_pair.md): 32 bits; reset 0. -/
  digest : BitVec 32 := 0
  /-- The last HEARTBEAT's content (R281, 11_pair.md); reset none. -/
  peer : Option HbMsg := none
  /-- A ring check is outstanding: its seq, and whether it has been repeated on a new map (R292, 11_pair.md); reset none. -/
  check : Option (BitVec 16 × Bool) := none
  /-- pair_state was other than IN_STEP at the trigger of the promotion in progress (R296, 11_pair.md): 1 bit; reset 0. -/
  outOfStep : Bool := false
  /-- Channels being given up under R280, still with their tokens (11_pair.md): 64 bits; reset 0. -/
  giving : BitVec 64 := 0
  /-- The castling in progress, if any, that the giving belongs to (R298, R299, R300, 11_pair.md); reset none. -/
  castling : Option TokenWhy := none
  /-- This member has asked its partner for a castling that has not come about (R298, R300, 11_pair.md): 1 bit; reset 0. -/
  asked : Bool := false
  /-- The role preference as the last full load took it (R290, R410, 16_power_start.md): 2 bits; reset 0. -/
  pref : BitVec 2 := 0
  /-- A ring check waits for a free request tag (R244, R292, 09_ring.md): 1 bit; reset 0. -/
  checkDue : Bool := false
  /-- PAIR_RAWDIFF has been measured in this training of the mirror lane (R434, 18_registers_fabric.md): 1 bit; reset 0. -/
  rawDone : Bool := false
  /-- Raw value of the last HEARTBEAT_SEND (R281, 11_pair.md): 64 bits; reset none. -/
  beatAt : Option Raw := none
  /-- The partner has told of a castling that it has begun and not ended (R300, 11_pair.md): 1 bit; reset 0. -/
  peerCastling : Bool := false
  /-- Number of this member's latest resync, or of what it began of it anew, which its HEARTBEAT carries and the partner's RESYNC cell
  answers (R283, 11_pair.md): 8 bits; reset 0. -/
  resyncNo : BitVec 8 := 0
  /-- Number of the partner's resync for which this member's items have been queued (R283, 11_pair.md): 8 bits; reset none. -/
  resyncFor : Option (BitVec 8) := none
  /-- Peer-delay cells that wait for mirror transmit, of the time unit (R209, R270, R282, 11_pair.md); reset empty. -/
  delayOut : List DelayCell := []
  /-- Mirror cells that wait for mirror transmit, with their requesters (R270, R282, 11_pair.md); reset empty. -/
  mirOut : List (Fin 78 × MirMsg) := []
  /-- The last mirror cell put on the mirror lane (R282, 11_pair.md): the lane's output; reset none. -/
  mirLane : Option MirCell := none
  /-- Seq of the next mirror cell this member sends (R11, R282, 11_pair.md): 16 bits; reset 0. -/
  mirSeq : BitVec 16 := 0
  /-- Mirror cells that have arrived and wait for a bank or for the lock table, oldest first (R256, 10_concourse.md); reset empty. -/
  mrxQ : List MirMsg := []
  /-- Seq of the last mirror cell that arrived (R11, R282, R283, 11_pair.md): 16 bits; reset none. -/
  mirGot : Option (BitVec 16) := none
  /-- This member's items have all been sent in the running resync (R283, 11_pair.md): 1 bit; reset 0. -/
  resyncSent : Bool := false
  /-- The partner's items have all arrived in the running resync (R283, 11_pair.md): 1 bit; reset 0. -/
  resyncGot : Bool := false
  /-- This member forms by the ring answer, the mirror was not UP in time (R290, 11_pair.md): 1 bit; reset 0. -/
  formRing : Bool := false
  /-- An active member that has lost mirror and ring holds no channel (R290, R293, 11_pair.md): 1 bit; reset 0. -/
  fenced : Bool := false
  deriving DecidableEq, Repr

/-- The states of a context (R306). -/
inductive CtxSt where
  | off | ready | stalled | halted | faulted
  deriving DecidableEq, Repr

/-- What a stalled context waits for, or has waiting for its completing turn (R308, R333). -/
inductive CtxWait where
  | none
  /-- the cause lasts: the data phase or the moment is still to come -/
  | pending
  /-- the wait ends at this raw value -/
  | until (t : Raw)
  /-- WAITA: the wait ends when raw[31:0] reaches this value -/
  | until32 (t : Word)
  /-- the cause has ended; these words are latched for the completing turn -/
  | done (ws : List Word)
  deriving DecidableEq, Repr

/-- A context of an engine (12_micro_engines.md). -/
structure Ctx where
  /-- MEk_CTXc_CFG (R309, R326, 12_micro_engines.md): 32 bits; reset 0. -/
  cfg : Word := 0
  /-- MEk_CTXc_STAT pc (R326, R331, 12_micro_engines.md): 10 bits; reset 0. -/
  pc : BitVec 10 := 0
  /-- MEk_CTXc_STAT ctx_state (R306, R326, 12_micro_engines.md): 3 bits; reset OFF. -/
  st : CtxSt := .off
  /-- MEk_CTXc_STAT cause (R308, R326, 12_micro_engines.md): 4 bits; reset 0. -/
  cause : BitVec 4 := 0
  /-- MEk_CTXc_Gj (R305, R326, 12_micro_engines.md): 16 registers of 32 bits; reset 0. -/
  g : Vector Word 16 := Vector.replicate 16 0
  /-- What the stalled instruction waits for, and the port's latch (R308, R333, 13_engine_isa.md); reset none. -/
  wait : CtxWait := .none
  deriving DecidableEq, Repr

/-- The states of an engine (R311). -/
inductive EngSt where
  | stopped | run | stopping
  deriving DecidableEq, Repr

/-- A micro-engine (12_micro_engines.md). -/
structure Engine where
  /-- MEk_STAT state (R311, R326, 12_micro_engines.md): 2 bits; reset STOPPED. -/
  st : EngSt := .stopped
  /-- MEk_STAT prog_busy (R312, R326, 12_micro_engines.md): 1 bit; reset 0. -/
  progBusy : Bool := false
  /-- MEk_STAT start_refused (R311, R326, 12_micro_engines.md): 1 bit; reset 0. -/
  startRefused : Bool := false
  /-- MEk_STAT ctx_fault_seen (R326, R333, 12_micro_engines.md): 1 bit; reset 0. -/
  faultSeen : Bool := false
  /-- MEk_CTXEN (R326, 12_micro_engines.md): 32 bits; reset 0. -/
  ctxEn : BitVec 32 := 0
  /-- MEk_SCR_PAGE (R326, R435, 12_micro_engines.md): 1 bit; reset 0. -/
  page : Bool := false
  /-- MEk_PROGi, the program store by address (R305, R312, R326, 12_micro_engines.md): 1 024 words; reset 0. -/
  prog : Tab Word := []
  /-- MEk_SCR, the scratch area by word address (R305, R326, 12_micro_engines.md): 16 384 words; reset 0. -/
  scratch : Tab Word := []
  /-- Bits in error of a scratch word: [31:0] word, [38:32] check bits (R305, 12_micro_engines.md): 39 bits; reset DESIGN CHOICE 0. -/
  flips : Tab (BitVec 39) := []
  /-- The 32 contexts (R305, 12_micro_engines.md): see Ctx. -/
  ctx : Vector Ctx 32 := Vector.replicate 32 {}
  /-- The context that had the last turn; the rotation goes on after it (R307, R314, 12_micro_engines.md): 5 bits; reset DESIGN CHOICE 31. -/
  last : CtxNo := 31
  /-- The egress slot of RPOST (R339, 13_engine_isa.md): one cell; reset empty. -/
  egress : Option RCell := none
  /-- The context whose instruction the memory port serves (R310, R333, 13_engine_isa.md); reset none. -/
  port : Option CtxNo := none
  /-- The context whose conversion the engine's one converter is in the middle of; a TCONV's own 14 tempi hold its conversion, so that between
  steps there is none (R337, 13_engine_isa.md; log 34); reset none. -/
  conv : Option CtxNo := none
  /-- A CONTEXT cell of the engine is not yet sent (R340, 13_engine_isa.md): 1 bit; reset 0. -/
  ctxCell : Bool := false
  deriving DecidableEq, Repr

/-- A pin cell (12_micro_engines.md). -/
structure PinCell where
  /-- PCELLp_CFG (R317, R327, 12_micro_engines.md): 22 bits; reset 0. -/
  cfg : BitVec 22 := 0
  /-- PCELLp_DIV (R316, R327, 12_micro_engines.md): 16 bits; reset 0. -/
  div : BitVec 16 := 0
  /-- PCELLp_STAT level (R327, 12_micro_engines.md): 1 bit; reset 0. -/
  level : Bool := false
  /-- PCELLp_STAT busy (R327, 12_micro_engines.md): 1 bit; reset 0. -/
  busy : Bool := false
  /-- PCELLp_EVT tx_under, rx_over, host_refused (R322, R327, 12_micro_engines.md): 3 bits; reset 0. -/
  evt : BitVec 3 := 0
  /-- TX queue, oldest first (R315, R324, 12_micro_engines.md): 4 words, up to 32 joined; reset empty. -/
  txq : List Word := []
  /-- RX queue, oldest first (R315, R324, 12_micro_engines.md): 4 words, up to 32 joined; reset empty. -/
  rxq : List Word := []
  /-- The shifter (R315, 12_micro_engines.md): 32 bits; reset 0. -/
  shifter : Word := 0
  /-- The bit counter (R315, 12_micro_engines.md): 6 bits; reset 0. -/
  bits : BitVec 6 := 0
  /-- PCELLp_SHADOW word (R313, R327, 12_micro_engines.md): 32 bits; reset 0. -/
  shWord : Word := 0
  /-- PCELLp_SHADOW bits (R313, R327, 12_micro_engines.md): 6 bits; reset 0. -/
  shBits : BitVec 6 := 0
  /-- PCELLp_SHADOW valid (R313, R314, R327, 12_micro_engines.md): 1 bit; reset 0. -/
  shValid : Bool := false
  /-- PCELLp_SHADOW tx (R313, R327, 12_micro_engines.md): 1 bit; reset 0. -/
  shTx : Bool := false
  /-- RX_SYNC has finished the bit that was in progress when its engine entered STOPPING (R313, 12_micro_engines.md): 1 bit; reset 0. -/
  finished : Bool := false
  /-- PCELLp_OUT out_level and drive (R317, R327, 12_micro_engines.md): 2 bits; reset 0. -/
  out : BitVec 2 := 0
  deriving DecidableEq, Repr

/-- A section of the image being loaded (R346): where it starts in the image, its type, district, reserved byte and payload. -/
structure Section where
  start : Nat
  stype : Nat
  district : Nat
  resv : Byte
  body : List Byte
  deriving DecidableEq, Repr

/-- A ballot as step 2 of a hold found it: the channel, its ballot, its recogniser, its launch-queue entry (R360). -/
structure BallotSave where
  chan : ChanNo
  slp : Sleep
  wake : Wake
  ent : LqEnt
  deriving DecidableEq, Repr

/-- The structure loader (14_structure_image.md). -/
structure Loader where
  /-- The staging area as far as a verify or an apply has read it in step 1: apply, the length, the bytes (R351, R358, R438,
  14_structure_image.md); reset none. -/
  reading : Option (Bool × Nat × List Byte) := none
  /-- IMG_SRC (R366, R438, 14_structure_image.md): 23 bits; reset 0. -/
  src : BitVec 23 := 0
  /-- IMG_STAT step (R360, R366, 14_structure_image.md): 4 bits; reset 0x0 IDLE. -/
  step : BitVec 4 := 0
  /-- IMG_STAT busy (R366, 14_structure_image.md): 1 bit; reset 0. -/
  busy : Bool := false
  /-- IMG_RESULT code (R358, R366, 14_structure_image.md): 8 bits; reset 0x00. -/
  resCode : BitVec 8 := 0
  /-- IMG_RESULT district (R358, R366, 14_structure_image.md): 4 bits; reset 0. -/
  resDist : BitVec 4 := 0
  /-- IMG_RESULT verify_only (R366, 14_structure_image.md): 1 bit; reset 0. -/
  resVerify : Bool := false
  /-- IMG_RESULT type (R358, R366, 14_structure_image.md): 16 bits; reset 0. -/
  resType : BitVec 16 := 0
  /-- IMG_RESULT_OFFS (R358, R366, 14_structure_image.md): 32 bits; reset 0. -/
  resOffs : BitVec 32 := 0
  /-- IMG_HOLD_CFG hold_ms (R360, R366, 14_structure_image.md): 14 bits; reset 0x0064. -/
  holdMs : BitVec 14 := 0x0064#14
  /-- IMG_HELD, the one held district (R363, R366, 14_structure_image.md): 14 bits; reset none. -/
  held : Option Nat := none
  /-- The hold was taken by the host, the district stays held after an apply (R363, 14_structure_image.md): 1 bit; reset 0. -/
  byHost : Bool := false
  /-- The held district has drained (R360, R363, 14_structure_image.md): 1 bit; reset 0. -/
  drained : Bool := false
  /-- The sections of the image being applied, as read (R438, 18_registers_fabric.md); reset none. -/
  image : Option (List Section) := none
  /-- The held district's engines as before step 2, which a TIMEOUT restores (R360, 14_structure_image.md); reset empty. -/
  save : List (EngNo × Engine) := []
  /-- The ballots that step 2 ended, which a TIMEOUT restores (R360, 14_structure_image.md): see BallotSave; reset empty. -/
  saveBal : List BallotSave := []
  /-- Raw value at the start of the drain, from which hold_ms runs (R360, 14_structure_image.md): 64 bits; reset 0. -/
  holdAt : Raw := 0
  /-- Channels whose line_req an apply under a hold of the host has written from LINE_SET, taken at the release (R43, R363,
  14_structure_image.md): 64 bits; reset 0. -/
  reqDue : BitVec 64 := 0
  /-- IMG_ID (R366, 14_structure_image.md): 32 bits; reset 0. -/
  id : BitVec 32 := 0
  /-- IMG_DEPOCHw, the district epochs (R360, R366, 14_structure_image.md): 14 of 8 bits; reset 0. -/
  epochs : Vector (BitVec 8) 14 := Vector.replicate 14 0
  /-- IMG_STAGE base (R350, R366, 14_structure_image.md): 24 bits; reset 0xF0_0000. -/
  stage : BitVec 24 := 0xF00000#24
  /-- IMG_STAGE_SIZE size (R350, R366, 14_structure_image.md): 23 bits; reset 0x10_0000. -/
  stageSize : BitVec 23 := 0x100000#23
  /-- LINE_SET's line_req of each channel, held over to start-up step 7 or to a release (R360, R400, 14_structure_image.md): reset OFF. -/
  lineSet : Vector LineSt 64 := Vector.replicate 64 .off
  /-- autostart of each engine, written at a release (R353, R360, 14_structure_image.md): 8 bits; reset 0. -/
  autostart : BitVec 8 := 0
  deriving DecidableEq, Repr

/-- A ledger copy (R378, R387): the fields of its header and what its content holds; the content's layout is Askaun's own, so it is held
as what it says. An erased copy has every bit 1. -/
structure Ledger where
  /-- Magic (R387, 15_service_update.md): 32 bits; reset DESIGN CHOICE erased. -/
  magic : BitVec 32 := 0xFFFFFFFF#32
  /-- Format version (R387, 15_service_update.md): 16 bits; reset DESIGN CHOICE erased. -/
  version : BitVec 16 := 0xFFFF#16
  /-- Ledger sequence (R387, 15_service_update.md): 32 bits; reset DESIGN CHOICE erased. -/
  seq : BitVec 32 := 0xFFFFFFFF#32
  /-- Sequence of the slot that wrote the copy (R387, 15_service_update.md): 32 bits; reset DESIGN CHOICE erased. -/
  slotSeq : BitVec 32 := 0xFFFFFFFF#32
  /-- Content length (R387, 15_service_update.md): 32 bits; reset DESIGN CHOICE erased. -/
  length : BitVec 32 := 0xFFFFFFFF#32
  /-- CRC-32C of the content (R387, 15_service_update.md): 32 bits; reset DESIGN CHOICE erased. -/
  crc : BitVec 32 := 0xFFFFFFFF#32
  /-- Content: the tag area, by word (R387, 15_service_update.md); reset none. -/
  tag : Option (Tab Word) := none
  /-- Content: the persistent settings (R387, 15_service_update.md), which the spec does not list; reset empty. -/
  settings : List Byte := []
  /-- Content: the time calibration, rxdly_ticks by channel (R69, R387, 15_service_update.md); reset empty. -/
  cal : Tab (Option (BitVec 5)) := []
  /-- Valid mark, programmed (R387, 15_service_update.md): 1 bit; reset DESIGN CHOICE erased. -/
  valid : Bool := false
  /-- Confirmed mark, programmed (R387, 15_service_update.md): 1 bit; reset DESIGN CHOICE erased. -/
  confirmed : Bool := false
  /-- Retired mark, programmed (R387, 15_service_update.md): 1 bit; reset DESIGN CHOICE erased. -/
  retired : Bool := false
  /-- The trial in which the copy was written, by the number of the flash (R387; log 162): 32 bits; reset DESIGN CHOICE 0. -/
  trialNo : BitVec 32 := 0
  deriving DecidableEq, Repr

/-- The flash (R377 to R379): physical, kept through every reset. -/
structure Flash where
  /-- SFDP present with the features of R377 (15_service_update.md): 1 bit; reset DESIGN CHOICE 1. -/
  sfdp : Bool := true
  /-- Density in MiB (R377, 15_service_update.md): 16 bits; reset DESIGN CHOICE 32. -/
  density : BitVec 16 := 32#16
  /-- An erase or program of the part fails (R381, 15_service_update.md): 1 bit; reset DESIGN CHOICE 0. -/
  broken : Bool := false
  /-- Slot A at 0x000_0000 and slot B at 0x080_0000 by flash byte offset, an unlisted byte 0xFF (R378, 15_service_update.md): 16 MiB; reset DESIGN CHOICE erased. -/
  bytes : List Host.Cell := []
  /-- Ledger copy 0, at flash offset 0x100_0000 (R378, R387, 15_service_update.md): 1 MiB; see Ledger. -/
  ledger0 : Ledger := {}
  /-- Ledger copy 1, at flash offset 0x110_0000 (R378, R387, 15_service_update.md): 1 MiB; see Ledger. -/
  ledger1 : Ledger := {}
  /-- Number of the last trial started, by which a copy written during it is told from one of an earlier trial (R387, 15_service_update.md;
  log 162): 32 bits, wraps; reset DESIGN CHOICE 0. -/
  trialNo : BitVec 32 := 0
  deriving DecidableEq, Repr

/-- An open update session (R380, R381). -/
structure Session where
  /-- SVC_STAT owner (R380, R392, 15_service_update.md): 11 bits. -/
  owner : BitVec 11
  /-- Content length given at UPDATE_OPEN (R380, 15_service_update.md): 32 bits. -/
  length : Nat
  /-- SVC_SESSION written, the next chunk's offset (R381, R392, 15_service_update.md): 24 bits. -/
  written : Nat
  /-- The last chunk accepted: offset and data (R381, 15_service_update.md). -/
  last : Option (Nat × List Byte)
  /-- Raw value 30 s after the response to the owner's last UPDATE_OPEN or UPDATE_CHUNK (R380, 15_service_update.md): 64 bits. -/
  due : Raw
  deriving DecidableEq, Repr

/-- The reassembly of a tunnelled NSP frame from one station (R375). -/
structure Reasm where
  station : BitVec 10
  length : Nat
  lastPart : Nat
  next : Nat
  bytes : List Byte
  start : Raw
  deriving DecidableEq, Repr

/-- A restart asked for by SLOT_SELECT (R383): its response has still to leave for a station, or the moment 10 ms after that. -/
inductive Restart where
  | none
  | afterResponse (station : BitVec 10)
  | due (t : Raw)
  deriving DecidableEq, Repr

/-- The service unit, the housekeeper's part of it, and the flash (15_service_update.md). -/
structure Service where
  /-- SVC_STAT recovery (R390, R392, 15_service_update.md): 1 bit; reset 0. -/
  recovery : Bool := false
  /-- SVC_STAT slot, 1 B (R392, 15_service_update.md): 1 bit; reset 0. -/
  slot : Bool := false
  /-- SVC_STAT trial (R384, R392, 15_service_update.md): 1 bit; reset 0. -/
  trial : Bool := false
  /-- SVC_STAT session_open and owner, SVC_SESSION written (R380, R392, 15_service_update.md): see Session; reset none. -/
  session : Option Session := none
  /-- Raw value at which the trial timer reaches 0; SVC_TRIAL remaining_s counts down to it (R385, R392, 15_service_update.md); reset none. -/
  trialEnd : Option Raw := none
  /-- SVC_LEDGER version (R392, 15_service_update.md): 16 bits; reset 0. -/
  ledVersion : BitVec 16 := 0
  /-- SVC_LEDGER copy (R392, 15_service_update.md): 1 bit; reset 0. -/
  ledCopy : Bool := false
  /-- SVC_LEDGER trial_copy (R388, R392, 15_service_update.md): 1 bit; reset 0. -/
  ledTrial : Bool := false
  /-- SVC_LEDGER ledger_defaulted (R389, R392, 15_service_update.md): 1 bit; reset 0. -/
  ledDefaulted : Bool := false
  /-- SVC_LEDGER_SEQ (R392, 15_service_update.md): 32 bits; reset 0. -/
  ledSeq : BitVec 32 := 0
  /-- A ledger write is in progress, with its snapshot of the tag area (R409, 16_power_start.md); reset none. -/
  ledBusy : Option (Tab Word) := none
  /-- The copy that the ledger write in progress writes (R388, R389, 15_service_update.md): 1 bit; reset 0. -/
  ledTo : Bool := false
  /-- The ledger sequence that the write in progress writes (R388, 15_service_update.md): 32 bits; reset 0. -/
  ledNext : BitVec 32 := 0
  /-- The persistent settings as start-up step 3 loaded them (R387, R400, 15_service_update.md); reset empty. -/
  settings : List Byte := []
  /-- The time calibration as start-up step 3 loaded it, rxdly_ticks by channel (R69, R387, R400, 15_service_update.md); reset empty. -/
  cal : Tab (Option (BitVec 5)) := []
  /-- SVC_FLASH density_mib and sfdp_ok as mask ROM read them (R377, R392, 15_service_update.md): 17 bits; reset 0. -/
  density : BitVec 16 := 0
  /-- SVC_FLASH sfdp_ok (R377, R392, 15_service_update.md): 1 bit; reset 0. -/
  sfdpOk : Bool := false
  /-- SVC_FLASH flash_err (R392, 15_service_update.md): 1 bit; reset 0. -/
  flashErr : Bool := false
  /-- SVC_SLOTx as mask ROM or the housekeeper has read them (R392, R428, 15_service_update.md): valid 1 after start-up step 1; reset 0. -/
  slotsRead : Bool := false
  /-- SVC_CRC_ERR (R371, R392, 15_service_update.md): 16 bits and SAT; reset 0. -/
  crcErr : Cnt := {}
  /-- SVC_FRAMING (R368, R392, 15_service_update.md): 16 bits and SAT; reset 0. -/
  framing : Cnt := {}
  /-- The response frame that polls return (R369, 15_service_update.md); reset none. -/
  resp : Option (List Byte) := none
  /-- The frame the last poll returned (R368, 15_service_update.md): the SVC_MISO output; reset empty. -/
  miso : List Byte := []
  /-- The service port's READ or WRITE that waits for ring answers: command, sequence, fabric address of the next part, words not yet
  sent for, words read (R374, 15_service_update.md); reset none. -/
  waiting : Option (Byte × Byte × BitVec 41 × List Word × List Word) := none
  /-- NSP requests that have reached the housekeeper while one is in progress, oldest first: source, seq of the request cell, command,
  frame (R374, 15_service_update.md); reset empty. -/
  nspQueue : List (NspFrom × BitVec 16 × Byte × NspReq) := []
  /-- Seq of the last NSP_REQ cell served, by source station, which the response repeats (R219, 09_ring.md): 16 bits; reset 0. -/
  nspSeen : Tab (BitVec 16) := []
  /-- Reassemblies of tunnelled frames, one a source station (R375, 15_service_update.md); reset empty. -/
  reasm : List Reasm := []
  /-- The restart that a SLOT_SELECT has asked for (R383, 15_service_update.md); reset none. -/
  restartDue : Restart := .none
  /-- Source stations of a tunnelled frame of which a part was refused, until their next part 0 (R375, 15_service_update.md); reset none. -/
  nspRefused : List (BitVec 10) := []
  /-- An UPDATE event of kind trial failed is to be sent once the ring is joined: slot and cause (R386, 15_service_update.md); reset none. -/
  failEvent : Option (Bool × BitVec 4) := none
  /-- The next NSP_RESP cells' last received part, for a tunnelled response of another station (R375, 15_service_update.md); reset none. -/
  tunnel : Option RCell := none
  deriving DecidableEq, Repr

/-- The whole device. -/
structure Device where
  /-- TAG block by word index: TAG_IDENT 0, TAG_ROLE 1, TAG_LABELi 2 to 9, TAG_LEDGER_SEQ 10, free words from 16 (R408, R421, 16_power_start.md): 32 bits each; reset TAG_IDENT 0xFFFF_FFFF, else 0. -/
  tag : Tab Word := [(0, 0xFFFFFFFF#32)]
  glb : Glob := {}
  lat : Lattice := {}
  sent : Vector Sentinel 4 := Vector.replicate 4 {}
  ch : Vector Channel 64 := Vector.replicate 64 {}
  sram : Sram := {}
  tim : TimeUnit := {}
  ring : Ring := {}
  /-- LCKi by index, an unlisted lock free with its mark set (R253, R432, 09_ring.md): 256 locks; see Lock. -/
  locks : Tab Lock := []
  con : Concourse := {}
  pair : Pair := {}
  eng : Vector Engine 8 := Vector.replicate 8 {}
  pin : Vector PinCell 128 := Vector.replicate 128 {}
  img : Loader := {}
  svc : Service := {}
  flash : Flash := {}
  deriving DecidableEq, Repr

/-- The state of the block: the device, and the commands that wait, first in, first out. -/
structure State where
  dev : Device
  pending : List Instr
  deriving DecidableEq, Repr

/-- Why a step stops with a fault. -/
inductive Fault where
  /-- Raised by RX_FRAME_VALID alone, for a frame whose data bytes do not number what its DLC says (R72, R129): no bus
  carries such a frame. Safe. -/
  | illFormedFrame
  deriving DecidableEq, Repr

/-- Why a step is refused. -/
inductive Refusal where
  /-- Raised by the dispatch for a command without a meaning, named by its mnemonic; no arm of this model raises it. Safe. -/
  | notModelled (mnemonic : String)
  deriving DecidableEq, Repr

/-- The block right after the first power-up: the sentinels run, every register holds its reset value, the lattice die is
at the end of its power-on reset and its release (LATTICE_RESET_RELEASE) is still to come (R395, R396, R418); no
command waits. -/
def State.reset : State := { dev := {}, pending := [] }

end Sys2Proof.Machine
end

