-- ==== Sys2Proof/Machine/Tab.lean ====
section
/-! DEFINITION. Sparse stores: reading, writing, and the one canonical form (keys strictly rising, no entry equal to
what an unlisted key reads as), so that equal stores are equal data. -/

namespace Sys2Proof.Machine

/-- The entry of key k, or none. -/
def tabFind {α : Type} (t : Tab α) (k : Nat) : Option α :=
  match t with
  | [] => none
  | (j, v) :: r => if j = k then some v else tabFind r k

/-- What key k reads as, dflt where it is not listed. -/
def tabGet {α : Type} (dflt : α) (t : Tab α) (k : Nat) : α := (tabFind t k).getD dflt

/-- The store without key k. -/
def tabErase {α : Type} (t : Tab α) (k : Nat) : Tab α := t.filter (fun e => decide (e.1 ≠ k))

/-- The store with key k at v, in its place. -/
def tabInsert {α : Type} (t : Tab α) (k : Nat) (v : α) : Tab α :=
  t.filter (fun e => decide (e.1 < k)) ++ (k, v) :: t.filter (fun e => decide (k < e.1))

/-- Write: a value equal to the default removes the entry. -/
def tabSet {α : Type} [DecidableEq α] (dflt : α) (t : Tab α) (k : Nat) (v : α) : Tab α :=
  if v = dflt then tabErase t k else tabInsert t k v

/-- Every key of the store is above k. -/
def tabAbove {α : Type} (k : Nat) (t : Tab α) : Bool := t.all (fun e => decide (k < e.1))

/-- The keys rise strictly. -/
def tabSorted {α : Type} (t : Tab α) : Bool :=
  match t with
  | [] => true
  | (k, _) :: r => tabAbove k r && tabSorted r

/-- The canonical form: rising keys, no entry equal to the default. -/
def tabWf {α : Type} [DecidableEq α] (dflt : α) (t : Tab α) : Bool :=
  tabSorted t && t.all (fun e => decide (e.2 ≠ dflt))

end Sys2Proof.Machine
end

