-- ==== Sys2Proof/Machine/Ops.lean ====
section
/-! DEFINITION. The shared operations of the block: fields of words, the parts of the device, counters, free values, SRAM
words, fabric time, ring cells, events and mirror cells. -/

namespace Sys2Proof.Machine

/-! ### Words and their fields -/

/-- A word out of fields: (lowest bit, value) pairs that do not overlap. -/
def pack (fs : List (Nat × Nat)) : Word := BitVec.ofNat 32 (fs.foldl (fun a e => a + e.2 * 2 ^ e.1) 0)

/-- The field of len bits from bit lo up, as a number. -/
def fld (w : Word) (lo len : Nat) : Nat := w.toNat / 2 ^ lo % 2 ^ len

/-- A bit set in a register. -/
def setBit {w : Nat} (v : BitVec w) (i : Nat) : BitVec w := v ||| BitVec.ofNat w (2 ^ i)

/-- A bit cleared in a register. -/
def clrBit {w : Nat} (v : BitVec w) (i : Nat) : BitVec w := v &&& ~~~ BitVec.ofNat w (2 ^ i)

/-- A bit at a value. -/
def putBit {w : Nat} (v : BitVec w) (i : Nat) (b : Bool) : BitVec w := if b then setBit v i else clrBit v i

/-- Little-endian bytes of a number. -/
def leBytes (len v : Nat) : List Byte := (List.range len).map (fun i => BitVec.ofNat 8 (v / 256 ^ i))

/-- The number that bytes at off spell, little-endian. -/
def leAt (bs : List Byte) (off len : Nat) : Nat :=
  (List.range len).foldl (fun a i => a + (bs.getD (off + i) 0).toNat * 256 ^ i) 0

/-- A list of n bytes: cut, or filled with zeros. -/
def fitTo (n : Nat) (bs : List Byte) : List Byte := bs.take n ++ List.replicate (n - bs.length) 0

/-- The words of a byte string, little-endian, the last filled with zeros. -/
def wordsOf (bs : List Byte) : List Word :=
  (List.range ((bs.length + 3) / 4)).map (fun i => BitVec.ofNat 32 (leAt bs (4 * i) 4))

/-- Serial-number order (R11): a is later than b. -/
def laterThan {w : Nat} (a b : BitVec w) : Bool := decide (0 < (a - b).toNat) && decide ((a - b).toNat < 2 ^ (w - 1))

/-- Raw value c has reached launch time or deadline l (R111). -/
def reached (c l : Raw) : Bool := decide ((c - l).toNat < 2 ^ 63)

/-- The raw value is one of a coincidence edge, which comes every 128 T ticks (R34, R202; log 137). -/
def atEdge (d : Device) : Bool := decide (d.tim.raw.setWidth 7 = d.lat.coinc)

/-- The raw value of the coincidence edge at or next after now (R202). -/
def nextEdge (d : Device) : Raw := d.tim.raw + (d.lat.coinc - d.tim.raw.setWidth 7).setWidth 64

/-- Some ticks have passed since a moment, or there was none. -/
def passed (d : Device) (last : Option Raw) (ticks : Nat) : Bool :=
  match last with
  | some r => decide (ticks ≤ (d.tim.raw - r).toNat)
  | none => true

/-- T ticks in a millisecond (R189). -/
def msTicks : Nat := 160000

/-- A raw value n ticks on. -/
def rawAdd (r : Raw) (n : Nat) : Raw := r + BitVec.ofNat 64 n

/-- One count of a saturating counter (R10). -/
def cntUp (c : Cnt) : Cnt := if c.count = 0xFFFF#16 then { c with sat := true } else { c with count := c.count + 1 }

/-- A counter register as read: the count, and SAT in bit 31. -/
def cntWord (c : Cnt) : Word := pack [(0, c.count.toNat), (31, c.sat.toNat)]

/-- A write to a counter register: 1 in bit 31 clears both (R10). -/
def cntWrite (c : Cnt) (v : Word) : Cnt := if v.getLsbD 31 then {} else c

/-! ### The parts of the device -/

/-- Channel n. -/
def chan (d : Device) (n : ChanNo) : Channel := d.ch[n]

/-- The service unit changed. -/
def onSvc (d : Device) (f : Service → Service) : Device := { d with svc := f d.svc }

/-- The loader changed. -/
def onImg (d : Device) (f : Loader → Loader) : Device := { d with img := f d.img }

/-- Channel n changed. -/
def onChan (d : Device) (n : ChanNo) (f : Channel → Channel) : Device := { d with ch := d.ch.set n (f (chan d n)) }

/-- The frame engine of channel n changed. -/
def onFe (d : Device) (n : ChanNo) (f : FrameEngine → FrameEngine) : Device := onChan d n (fun c => { c with fe := f c.fe })

/-- The launch queue of channel n changed. -/
def onLq (d : Device) (n : ChanNo) (f : LaunchQ → LaunchQ) : Device := onChan d n (fun c => { c with lq := f c.lq })

/-- The journal of channel n changed. -/
def onJn (d : Device) (n : ChanNo) (f : Journal → Journal) : Device := onChan d n (fun c => { c with jn := f c.jn })

/-- The sleep ballot of channel n changed. -/
def onSlp (d : Device) (n : ChanNo) (f : Sleep → Sleep) : Device := onChan d n (fun c => { c with slp := f c.slp })

/-- The wake recogniser of channel n changed. -/
def onWake (d : Device) (n : ChanNo) (f : Wake → Wake) : Device := onChan d n (fun c => { c with wake := f c.wake })

/-- The line interface of channel n changed. -/
def onLine (d : Device) (n : ChanNo) (f : Line → Line) : Device := onChan d n (fun c => { c with line := f c.line })

/-- The sentinel of die k changed. -/
def onSent (d : Device) (k : DieNo) (f : Sentinel → Sentinel) : Device := { d with sent := d.sent.set k (f d.sent[k]) }

/-- Engine k changed. -/
def onEng (d : Device) (k : EngNo) (f : Engine → Engine) : Device := { d with eng := d.eng.set k (f d.eng[k]) }

/-- Pin cell p changed. -/
def onPin (d : Device) (p : PinNo) (f : PinCell → PinCell) : Device := { d with pin := d.pin.set p (f d.pin[p]) }

/-- The port of a lane. -/
def port (d : Device) (p : Port) : LanePort :=
  match p with
  | .east => d.ring.east
  | .west => d.ring.west
  | .mirror => d.ring.mirror

/-- A lane port changed. -/
def onPort (d : Device) (p : Port) (f : LanePort → LanePort) : Device :=
  match p with
  | .east => { d with ring := { d.ring with east := f d.ring.east } }
  | .west => { d with ring := { d.ring with west := f d.ring.west } }
  | .mirror => { d with ring := { d.ring with mirror := f d.ring.mirror } }

/-- The number of a lane port. -/
def portIdx (p : Port) : Fin 3 :=
  match p with
  | .east => 0
  | .west => 1
  | .mirror => 2

/-- The lane port of a ring side. -/
def sidePort (s : Side) : Port :=
  match s with
  | .east => .east
  | .west => .west

/-- The other side. -/
def otherSide (s : Side) : Side :=
  match s with
  | .east => .west
  | .west => .east

/-- This side of the station is wrapped (R232). -/
def wrapped (d : Device) (s : Side) : Bool :=
  match s with
  | .east => d.ring.wrapEast
  | .west => d.ring.wrapWest

/-- The argument of the next free value, and the device with the counter advanced. -/
def takeFree (d : Device) : Nat × Device := (d.glb.free, { d with glb := { d.glb with free := d.glb.free + 1 } })

/-- The channels of a die. -/
def dieChans (k : DieNo) : List ChanNo := (List.finRange 64).filter (fun n => decide (n.val / 16 = k.val))

/-- One change for each channel of a list, in order. -/
def forChans (d : Device) (ns : List ChanNo) (f : Device → ChanNo → Device) : Device := ns.foldl f d

/-- The high half of a 64-bit register, latched by a read of its low half at offset off (R5, R416). -/
def latchHi (d : Device) (off : Nat) (w : Word) : Device :=
  { d with glb := { d.glb with hiLatch := tabSet (0 : Word) d.glb.hiLatch off w } }

/-- The offset of a register of channel n's block (R70). -/
def chanOff (n : ChanNo) (r : Nat) : Nat := 0x100000 + n.val * 0x1000 + r

/-- A command that reaches the always-on part. -/
def act (s : State) (f : Device → Device) : Host.Outcome State Fault Refusal := .next { s with dev := f s.dev }

/-- A command of the lattice: while the lattice die is in reset or without power it finds nothing to act on (R394, R396;
log 2). -/
def latAct (s : State) (f : Device → Device) : Host.Outcome State Fault Refusal :=
  act s (fun d => if d.glb.latUp then f d else d)

/-- A command of the always-on domain: without VAON it finds nothing to act on (R395, R444). -/
def vaonAct (s : State) (f : Device → Device) : Host.Outcome State Fault Refusal :=
  act s (fun d => if d.glb.vaonUp then f d else d)

/-- A bit of GLB_ERR set by an access, whose offset and source are kept (R419). -/
def glbErr (d : Device) (bit : Nat) (src : Src) (off : Nat) : Device :=
  let (st, code) : BitVec 10 × BitVec 2 := match src with
    | .ring n => (n, 0)
    | .service => (0, 1)
    | .housekeeper => (0, 2)
  { d with glb := { d.glb with
    err := setBit d.glb.err bit, errOffs := BitVec.ofNat 30 off, errStation := st, errSource := code } }

/-! ### The SRAM (R150, R255, R427) -/

/-- The byte at an SRAM offset, 0x00 where nothing has been written (log 4). -/
def sramByte (d : Device) (a : Nat) : Byte := tabGet (0 : Byte) d.sram.bytes a

/-- The word at an SRAM offset, as written. -/
def sramWord (d : Device) (a : Nat) : Word :=
  BitVec.ofNat 32 ((sramByte d a).toNat + 256 * (sramByte d (a + 1)).toNat + 65536 * (sramByte d (a + 2)).toNat
    + 16777216 * (sramByte d (a + 3)).toNat)

/-- Write one byte. -/
def sramPut (s : List Host.Cell) (a : Nat) (b : Byte) : List Host.Cell := tabSet (0 : Byte) s a b

/-- Write a word with its END mark; its check bits then agree. -/
def sramSetWord (d : Device) (a : Nat) (w : Word) (endMark : Bool) : Device :=
  let b := fun i => BitVec.ofNat 8 (w.toNat / 256 ^ i)
  { d with sram :=
      { bytes := sramPut (sramPut (sramPut (sramPut d.sram.bytes a (b 0)) (a + 1) (b 1)) (a + 2) (b 2)) (a + 3) (b 3)
        ends := tabSet false d.sram.ends a endMark
        flips := tabSet (0 : BitVec 40) d.sram.flips a 0 } }

/-- Write a word in place (R427): its END mark, which is no part of the word, stays (log 29). -/
def sramPutWord (d : Device) (a : Nat) (w : Word) : Device := sramSetWord d a w (tabGet false d.sram.ends a)

/-- The number of bits set. -/
def ones {w : Nat} (v : BitVec w) : Nat := ((List.range w).filter (fun i => v.getLsbD i)).length

/-- What a read of a stored word finds under its check bits (R150). -/
structure Checked where
  word : Word
  endMark : Bool
  corr : Bool
  uncorr : Bool
  deriving DecidableEq, Repr

/-- What the check bits make of a stored word: one bit in error is corrected, two are found and the word comes as read, three
or more do what the spec leaves open (R150), told by the free value k. -/
def checkWord (w : Word) (e : Bool) (x : BitVec 40) (k : Nat) : Checked :=
  if ones x = 0 then ⟨w, e, false, false⟩
  else if ones x = 1 then ⟨w, e, true, false⟩
  else if ones x = 2 then ⟨w ^^^ x.extractLsb' 0 32, e ^^ x.getLsbD 32, false, true⟩
  else
    let p := Config.eccPattern k
    ⟨p.extractLsb' 0 32, p.getLsbD 32, p.getLsbD 33 && !p.getLsbD 34, p.getLsbD 34⟩

/-- The bits in error of a stored word. -/
def flipsAt (d : Device) (a : Nat) : BitVec 40 := tabGet (0 : BitVec 40) d.sram.flips a

/-- The stored word at an SRAM offset as a read delivers it (R150). -/
def delivered (d : Device) (a : Nat) : Checked :=
  checkWord (sramWord d a) (tabGet false d.sram.ends a) (flipsAt d a) d.glb.free

/-- Read a stored word under its check bits (R150); a read that met a free value takes it. -/
def checkedRead (d : Device) (a : Nat) : Checked × Device :=
  (delivered d a, if 2 < ones (flipsAt d a) then (takeFree d).2 else d)

/-! ### Fabric time (R190, R197 to R199) -/

/-- Fabric time of a raw value of fraction denominator den, for a rate and an offset: Q64.16 modulo 2^80 (R190). -/
def ftAt (rate : BitVec 48) (offset : BitVec 80) (rawNum : Int) (den : Nat) : BitVec 80 :=
  offset + BitVec.ofInt 80 (rawNum * (rate.toNat : Int) / ((den : Int) * 16777216))

/-- Fabric time of a whole raw value now. -/
def ftNow (d : Device) (r : Raw) : BitVec 80 := ftAt d.tim.rate d.tim.offset r.toNat 1

/-- The record of a generation. -/
def histOf (d : Device) (g : BitVec 4) : Hist := d.tim.hist[g.toFin]

/-- Forward conversion with a generation (R199): it must be recorded, and the raw value must lie from its boundary less
32 ticks up to the next generation's boundary. DESIGN CHOICE: where the next generation is not recorded there is no upper limit, also where its
register still holds one of an earlier turn, whose boundary is not later (log 150). -/
def convertGen (d : Device) (g : BitVec 4) (r : Raw) : Option (BitVec 80) :=
  let h := histOf d g
  let nx := histOf d (g + 1)
  if h.valid && reached r (h.boundary - 32) && (decide (g = d.tim.gen) || !nx.valid || !laterThan nx.boundary h.boundary || !reached r nx.boundary)
  then some (ftAt h.rate h.offset r.toNat 1) else none

/-- The generations, latest first. -/
def gensBack (d : Device) : List (BitVec 4) := (List.range 16).map (fun i => d.tim.gen - BitVec.ofNat 4 i)

/-- The valid generation whose boundary is the latest at or before a raw value (R197, R199); of equal ones the latest generation. -/
def genOf (d : Device) (r : Raw) : Option (BitVec 4) :=
  let age := fun (g : BitVec 4) => (r - (histOf d g).boundary).toNat
  ((gensBack d).filter (fun g => (histOf d g).valid && reached r (histOf d g).boundary)).foldl (fun best g => match best with
    | none => some g
    | some b => if age g < age b then some g else some b) none

/-- Forward conversion with the valid generation of the latest boundary at or before the raw value (R199). -/
def convertRaw (d : Device) (r : Raw) : Option (BitVec 4 × BitVec 80) :=
  (genOf d r).map (fun g => (g, ftAt (histOf d g).rate (histOf d g).offset r.toNat 1))

/-- Inverse conversion: the smallest whole raw value whose fabric time is at or after t (R199). -/
def convertBack (d : Device) (t : BitVec 80) : Raw :=
  let need : Int := (t - d.tim.offset).toInt
  let rate : Int := d.tim.rate.toNat
  if rate = 0 then 0 else BitVec.ofInt 64 (-((-(need * 16777216)) / rate))

/-! ### Ring cells (R218 to R226, R235) -/

/-- A requester of the concourse. -/
abbrev ReqNo := Fin 78

/-- The housekeeper as requester (R255). -/
def qHouse : ReqNo := 75

/-- The time unit as requester. -/
def qTime : ReqNo := 77

/-- A channel unit as requester. -/
def qChan (n : ChanNo) : ReqNo := ⟨n.val, by omega⟩

/-- A micro-engine as requester. -/
def qEng (k : EngNo) : ReqNo := ⟨64 + k.val, by omega⟩

/-- The drop queue of a side as requester. -/
def qDrop (s : Side) : ReqNo :=
  match s with
  | .east => 72
  | .west => 73

/-- One bit of CRC-32C, reflected (R220). -/
def crcBit (c : BitVec 32) : BitVec 32 := if c.getLsbD 0 then (c >>> 1) ^^^ 0x82F63B78#32 else c >>> 1

/-- One byte of CRC-32C. -/
def crcByte (c : BitVec 32) (b : Byte) : BitVec 32 :=
  crcBit (crcBit (crcBit (crcBit (crcBit (crcBit (crcBit (crcBit (c ^^^ b.setWidth 32))))))))

/-- CRC-32C of a byte string (R220). -/
def crc32c (bs : List Byte) : BitVec 32 := ~~~ (bs.foldl crcByte 0xFFFFFFFF#32)

/-- The header of a cell as a number (R219). -/
def headerNat (c : RCell) : Nat :=
  c.dest.toNat + c.src.toNat * 2 ^ 10 + c.ctype.toNat * 2 ^ 20 + c.seq.toNat * 2 ^ 26 + c.epoch.toNat * 2 ^ 42
    + c.hop.toNat * 2 ^ 50 + c.bcast.toNat * 2 ^ 60 + c.pair.toNat * 2 ^ 61 + c.retried.toNat * 2 ^ 62
    + c.wrapOdd.toNat * 2 ^ 63

/-- The CRC-32C of a cell: header, payload, trailer bytes 4 to 7 (R220). -/
def cellCrc (c : RCell) : BitVec 32 :=
  crc32c (leBytes 8 (headerNat c) ++ fitTo 64 c.payload ++ leBytes 4 c.seqEcho.toNat)

/-- The map entry of a station. -/
def mapOf (d : Device) (s : BitVec 10) : MapEnt := tabGet {} d.ring.maps s.toNat

/-- The map entry of a station changed. -/
def onMap (d : Device) (s : BitVec 10) (f : MapEnt → MapEnt) : Device :=
  { d with ring := { d.ring with maps := tabSet {} d.ring.maps s.toNat (f (mapOf d s)) } }

/-- The pair entry of a pair. -/
def pairOf (d : Device) (p : Nat) : PairEnt := tabGet {} d.ring.pairs p

/-- The side by which a unicast cell to a station leaves: fewer hops, a tie on CW, none when it is reachable on neither
ring or the number is in collision (R230, R235). CW leaves at East (R223). A joined station's own number is reachable on both rings
with 0 hops (R431). -/
def routeTo (d : Device) (s : BitVec 10) : Option Side :=
  let m := mapOf d s
  if decide (s = d.ring.station) && (decide (d.ring.join = .joining) || decide (d.ring.join = .joined)) then some .east
  else if m.collision then none
  else if m.cwOk && (!m.ccwOk || decide (m.cwHops ≤ m.ccwHops)) then some .east
  else if m.ccwOk then some .west
  else none

/-- A cell joins those that wait for a side's add port; the wrap of a failed side turns it to the other (R232). -/
def queueOut (d : Device) (q : ReqNo) (s : Side) (c : RCell) : Device :=
  let s' := if wrapped d s then otherSide s else s
  let c' := if wrapped d s then { c with wrapOdd := !c.wrapOdd, hop := 0 } else c
  match s' with
  | .east => { d with ring := { d.ring with outEast := d.ring.outEast ++ [(q, c')] } }
  | .west => { d with ring := { d.ring with outWest := d.ring.outWest ++ [(q, c')] } }

/-- A new cell of this station: its src, the next ring cell sequence, which seq_echo repeats (R219). -/
def newCell (d : Device) (ctype : BitVec 6) (dest : BitVec 10) (epoch : BitVec 8) (payload : List Byte) : RCell × Device :=
  ({ dest := dest, src := d.ring.station, ctype := ctype, seq := d.ring.nextSeq, epoch := epoch, hop := 0, bcast := false,
     pair := false, retried := false, wrapOdd := false, payload := fitTo 64 payload, seqEcho := d.ring.nextSeq, crc := 0 },
   { d with ring := { d.ring with nextSeq := d.ring.nextSeq + 1 } })

/-- A broadcast leaves on both rings, but not by a wrapped side (R226, R232); the two copies share a seq. -/
def sendBroadcast (d : Device) (q : ReqNo) (ctype : BitVec 6) (payload : List Byte) : Device :=
  let (c, d) := newCell d ctype 0 0 payload
  let c := { c with bcast := true }
  let d := if d.ring.wrapEast then d else queueOut d q .east c
  if d.ring.wrapWest then d else queueOut d q .west c

/-- A response to a request cell: status in the epoch field, seq_echo the request's seq (R219, R240). -/
def sendResponse (d : Device) (q : ReqNo) (req : RCell) (ctype : BitVec 6) (status : BitVec 8) (payload : List Byte) : Device :=
  match routeTo d req.src with
  | some s =>
    let (c, d) := newCell d ctype req.src status payload
    queueOut d q s { c with seqEcho := req.seq }
  | none => d

/-- Does a pair-space offset belong to a channel block, and to which channel (R237, R238)? -/
def chanOfOffset (off : Nat) : Option ChanNo :=
  if h : 0x100000 ≤ off ∧ off < 0x140000 then some ⟨(off - 0x100000) / 0x1000, by omega⟩ else none

/-- The station that holds a pair address, as RNG_PAIRp records it (R238). -/
def pairHolder (d : Device) (p : Nat) (off : Nat) : BitVec 10 :=
  let e := pairOf d p
  match chanOfOffset off with
  | some n => if e.castled.getLsbD n.val then e.shadow else e.active
  | none => e.active

/-- The pending bit of an event code, and, while GLB_EVT_DEST is valid and the station reachable, its EVENT cell (R246). -/
def event (d : Device) (code : Nat) (unit : Nat) (stamp : Raw) (gen : BitVec 4) (detail : Nat) : Device :=
  let d := { d with glb := { d.glb with evtPend := setBit d.glb.evtPend code } }
  if d.glb.evtValid && decide (code ≠ 10) then
    match routeTo d d.glb.evtDest with
    | some s =>
      let body := leBytes 2 1 ++ leBytes 1 code ++ leBytes 1 0 ++ leBytes 2 unit ++ leBytes 2 d.glb.evtSeq.toNat
        ++ leBytes 8 stamp.toNat ++ leBytes 1 gen.toNat ++ leBytes 3 0 ++ leBytes 4 detail
      let (c, d) := newCell d 8 d.glb.evtDest (mapOf d d.glb.evtDest).epoch body
      queueOut { d with glb := { d.glb with evtSeq := d.glb.evtSeq + 1 } } qHouse s c
    | none => d
  else d

/-- An event stamped with the raw counter now. -/
def eventNow (d : Device) (code : Nat) (unit : Nat) (detail : Nat) : Device :=
  event d code unit d.tim.raw d.tim.gen detail

/-- A checked word read outside journal pops is counted; an uncorrectable one raises the ECC event (R420). -/
def eccCount (d : Device) (c : Checked) : Device :=
  let d := if c.corr then { d with glb := { d.glb with eccCorr := cntUp d.glb.eccCorr } } else d
  if c.uncorr then
    let d := { d with glb := { d.glb with eccUncorr := cntUp d.glb.eccUncorr } }
    eventNow d 5 0xFFFF d.glb.eccUncorr.count.toNat
  else d

/-- An SRAM word read outside journal pops (R420). -/
def memRead (d : Device) (a : Nat) : Word × Device :=
  let (c, d) := checkedRead d a
  (c.word, eccCount d c)

/-- SRAM words read outside journal pops, counted (R420). -/
def memCount (d : Device) (as : List Nat) : Device := as.foldl (fun d a => (memRead d a).2) d

/-- EVENT_N is driven low (R246); until the lattice reset releases it is not driven (R394). -/
def eventN (d : Device) : Bool := d.glb.latUp && decide (d.glb.evtPend &&& d.glb.evtMask ≠ 0)

/-! ### The pair (R278, R284) -/

/-- The module belongs to a declared pair. -/
def paired (d : Device) : Bool := decide (d.pair.role ≠ .unpaired)

/-- This member holds channel n (R278). -/
def holdsChan (d : Device) (n : ChanNo) : Bool := d.pair.held.getLsbD n.val

/-- The module is the shadow for channel n (R278). -/
def shadowFor (d : Device) (n : ChanNo) : Bool := paired d && !holdsChan d n

/-- The ballot state of channel n is this member's to advance: the member holds the channel, or the channel itself follows a SLEEP_COMMIT
in NORMAL (R170, R171; log 158). -/
def ballotHere (d : Device) (n : ChanNo) : Bool :=
  !shadowFor d n || decide ((chan d n).slp.phase = .follow) && decide ((chan d n).line.state = .normal)

/-- Mirror items travel: a formed pair in step or in resync, with the mirror lane UP (R283, R290, R294). -/
def mirrorOn (d : Device) : Bool :=
  (decide (d.pair.role = .active) || decide (d.pair.role = .shadow))
    && (decide (d.pair.st = .inStep) || decide (d.pair.st = .resync)) && decide (d.ring.mirror.st = .up)

/-- A mirror cell joins those that wait for mirror transmit. -/
def mirrorQueue (d : Device) (q : ReqNo) (m : MirMsg) : Device :=
  { d with pair := { d.pair with mirOut := d.pair.mirOut ++ [(q, m)] } }

/-- An item of a channel this member holds goes to the partner (R284). -/
def mirrorChan (d : Device) (n : ChanNo) (m : MirMsg) : Device :=
  if mirrorOn d && holdsChan d n then mirrorQueue d (qChan n) m else d

/-- An item of the active goes to the partner (R284). -/
def mirrorActive (d : Device) (q : ReqNo) (m : MirMsg) : Device :=
  if mirrorOn d && decide (d.pair.role = .active) then mirrorQueue d q m else d

end Sys2Proof.Machine
end

