-- ==== Sys2Proof/Machine/BankOps.lean ====
section
/-! DEFINITION. The arbiters of the concourse as every user of a bank meets them: ranks, tables, holders, and the use of a bank by
one access (10_concourse.md). -/

namespace Sys2Proof.Machine

/-- The rank of a resource (R256). -/
def rankOf (r : ResNo) : Nat :=
  if r.val < 16 then 10 + r.val
  else if r.val = 16 then 40
  else if r.val = 17 then 50
  else if r.val = 18 then 51
  else 60

/-- The arbiter of resource r. -/
def arbOf (d : Device) (r : ResNo) : Arbiter := d.con.res[r]

/-- The arbiter of resource r changed. -/
def onArb (d : Device) (r : ResNo) (f : Arbiter → Arbiter) : Device :=
  { d with con := { d.con with res := d.con.res.set r (f (arbOf d r)) } }

/-- Slot entry e of resource r in a table; an unlisted one is OPEN (R261). -/
def slotAt (t : Tab (BitVec 7)) (r e : Nat) : BitVec 7 := tabGet (0x7F : BitVec 7) t (256 * r + e)

/-- The background position of requester q for resource r in a table; at reset q itself (R262). -/
def posAt (t : Tab (BitVec 7)) (r q : Nat) : BitVec 7 := tabGet (0 : BitVec 7) t (128 * r + q) + BitVec.ofNat 7 q

/-- A background position written. -/
def posSet (t : Tab (BitVec 7)) (r q : Nat) (p : BitVec 7) : Tab (BitVec 7) :=
  tabSet (0 : BitVec 7) t (128 * r + q) (p - BitVec.ofNat 7 q)

/-- Resource r is frozen by the host or by the loader (R265). -/
def frozen (d : Device) (r : ResNo) : Bool := (d.con.freeze ||| d.con.loaderFreeze).getLsbD r.val

/-- Two names of one requester of R267: the unit, but of a channel unit each part for itself (R462). -/
def sameHolder (x y : Requester) : Bool := decide (x.1 = y.1) && (decide (64 ≤ x.1.val) || decide (x.2 = y.2))

/-- The resources a requester holds (R267, R462). -/
def heldBy (d : Device) (x : Requester) : List ResNo :=
  (List.finRange 20).filter (fun r => (arbOf d r).owner.any (sameHolder x))

/-- The highest-ranked of resources listed by rising index; ranks rise with the index. -/
def topOf (rs : List ResNo) : Option ResNo := rs.getLast?

/-- Unit q has a request for r outstanding, or one of its parts holds r or is to hold it (R257, R462). -/
def outstanding (d : Device) (q : ReqNo) (r : ResNo) : Bool :=
  let a := arbOf d r
  let here := fun (o : Option Requester) => match o with
    | some x => decide (x.1 = q)
    | none => false
  here a.owner || here a.next || a.pending.any (fun x => decide (x.1 = q))

/-- The released tables of resource r taken, its slot pointer at 0 (R263). -/
def takeTables (d : Device) (r : ResNo) : Device :=
  let slots := (List.range 256).foldl (fun t e => tabSet (0x7F : BitVec 7) t (256 * r.val + e) (slotAt d.con.slotsDue r.val e)) d.con.slots
  let ranks := (List.range 78).foldl (fun t q => posSet t r.val q (posAt d.con.ranksDue r.val q)) d.con.ranks
  onArb { d with con := { d.con with slots := slots, ranks := ranks } } r (fun a => { a with slotPtr := 0, takeStaged := false })

/-! ### The use of a bank (R256, R257, R259, R265) -/

/-- The bank that holds an SRAM offset (R256). -/
def bankOf (a : Nat) : ResNo := ⟨a / 0x100000 % 16, by omega⟩

/-- x's access to resource r can take place now: x owns it, or it is idle, nobody else waits for it and it is not frozen, except to
the loader (R259, R265). -/
def mayUse (d : Device) (x : Requester) (r : ResNo) : Bool :=
  let a := arbOf d r
  decide (a.owner = some x)
    || (decide (a.owner = none) && decide (a.next = none) && a.pending.all (fun y => decide (y = x))
      && (!frozen d r || decide (x.1 = 76)))

/-- x waits for r: its request is pending or decided, or it waits inside its unit (R257, R259, R462). -/
def awaits (d : Device) (x : Requester) (r : ResNo) : Bool :=
  let a := arbOf d r
  a.next.any (sameHolder x) || a.pending.any (sameHolder x) || a.inside.any (sameHolder x)

/-- x holds r. -/
def holds (d : Device) (x : Requester) (r : ResNo) : Bool := (arbOf d r).owner.any (sameHolder x)

/-- x may turn to resource r (R267, R268, R462): all it holds ranks lower; a part of a channel unit and a micro-engine hold no other resource
and wait for none. -/
def turnsTo (d : Device) (x : Requester) (r : ResNo) : Bool :=
  (List.finRange 20).all (fun h => decide (h = r)
    || (!holds d x h && !(decide (x.1.val < 72) && awaits d x h))
    || (decide (72 ≤ x.1.val) && decide (rankOf h < rankOf r)))

/-- x's access to r takes place now: r is its own, or may be used and x may turn to it. -/
def canUse (d : Device) (x : Requester) (r : ResNo) : Bool :=
  decide ((arbOf d r).owner = some x) || (mayUse d x r && turnsTo d x r)

/-- A part of a channel unit that waited inside it for r requests again, once no sibling holds r or its request (R462). -/
def askAgain (d : Device) (r : ResNo) (u : ReqNo) : Device :=
  match (arbOf d r).inside.find? (fun y => decide (y.1 = u)) with
  | some y =>
    if outstanding d u r then d
    else onArb d r (fun a => { a with pending := a.pending ++ [y], inside := a.inside.filter (fun z => decide (z ≠ y)) })
  | none => d

/-- x's access to a resource it may use: on an idle one the request, its decision and the release fall within it (R259, R261; log 91), after
which a sibling part requests again (R462). -/
def useBank (d : Device) (x : Requester) (r : ResNo) : Device :=
  if (arbOf d r).owner = some x then d
  else
    let d := if (arbOf d r).takeStaged then takeTables d r else d
    askAgain (onArb d r (fun a => { a with slotPtr := a.slotPtr + 1, pending := [] })) r x.1

/-- x's request enters the pending queue, once (R257, R264); a second part of a channel unit waits inside the unit (R462). -/
def askFor (d : Device) (x : Requester) (r : ResNo) : Device :=
  onArb d r (fun a =>
    if decide (a.owner = some x) || decide (a.next = some x) || a.pending.contains x || a.inside.contains x then a
    else if outstanding d x.1 r then
      if x.1.val < 64 then { a with inside := a.inside ++ [x] } else a
    else { a with pending := a.pending ++ [x] })

/-- x's request for r, made as soon as x may turn to r. -/
def turnTo (d : Device) (x : Requester) (r : ResNo) : Device := if turnsTo d x r then askFor d x r else d

/-- An access of x to the bank of an SRAM offset: it takes place, or it waits with its request outstanding. -/
def withBank (d : Device) (x : Requester) (a : Nat) (f : Device → Device) : Device :=
  if canUse d x (bankOf a) then f (useBank d x (bankOf a)) else turnTo d x (bankOf a)

/-! ### Work that takes several resources -/

/-- The resources of a list in rank order, each once. -/
def inRank (rs : List ResNo) : List ResNo := (List.finRange 20).filter (fun r => rs.contains r)

/-- The lock table as resource (R256). -/
def lockTable : ResNo := 19

/-- The work of x waits no longer. -/
def noWait (d : Device) (x : Requester) (w : ConWork) : Device :=
  { d with con := { d.con with waits := d.con.waits.filter (fun y => decide ((y.who, y.work) ≠ (x, w))) } }

/-- x has every resource of a list for the asking (R256, R259). -/
def canAll (d : Device) (x : Requester) (rs : List ResNo) : Bool := rs.all (canUse d x)

/-- x takes every resource of a list for its work. -/
def useAll (d : Device) (x : Requester) (w : ConWork) (rs : List ResNo) : Device :=
  rs.foldl (fun d r => useBank d x r) (noWait d x w)

/-- The work of x waits for a list of resources, the first that it cannot have requested (R257, R267). -/
def awaitAll (d : Device) (x : Requester) (w : ConWork) (rs : List ResNo) : Device :=
  let d := noWait d x w
  let d := { d with con := { d.con with waits := d.con.waits ++ [⟨x, w, rs⟩] } }
  match rs.find? (fun r => !canUse d x r) with
  | some r => turnTo d x r
  | none => d

/-- The work of x under all the resources it takes, or its wait for them. -/
def withAll (d : Device) (x : Requester) (w : ConWork) (rs : List ResNo) (f : Device → Device) : Device :=
  if canAll d x rs then f (useAll d x w rs) else awaitAll d x w rs

/-- Work of x that waits takes resource r (R257). -/
def waitsFor (d : Device) (x : Requester) (r : ResNo) : Bool := d.con.waits.any (fun y => decide (y.who = x) && y.needs.contains r)

end Sys2Proof.Machine
end

