-- ==== Sys2Proof/Machine/JournalOps.lean ====
section
/-! DEFINITION. The shared operations of the receive journals (06_journals.md, R272, R273): the words of an entry, staging,
writing, losing, popping and the rewind mark. -/

namespace Sys2Proof.Machine

/-! ### Frames as words -/

/-- Data length in bytes of a DLC (R72, R129). -/
def dataLen (fdf rtr : Bool) (dlc : BitVec 4) : Nat :=
  if fdf then
    if dlc.toNat ≤ 8 then dlc.toNat
    else [12, 16, 20, 24, 32, 48, 64].getD (dlc.toNat - 9) 64
  else if rtr then 0 else min dlc.toNat 8

/-- Data length of a frame. -/
def frameLen (f : Frame) : Nat := dataLen f.fdf f.rtr f.dlc

/-- Word 2 of a frame entry (R129). -/
def identWord (f : Frame) : Word := pack [(0, f.ident.toNat), (29, f.ide.toNat), (30, f.rtr.toNat)]

/-- Word 3 of an entry with seq 0, which the visible step fills in (R128, R135). -/
def kindWord (dlc kind : Nat) (fdf brs esi : Bool) (gen : BitVec 4) : Word :=
  pack [(0, dlc), (4, kind), (7, fdf.toNat), (8, brs.toNat), (9, esi.toNat), (12, gen.toNat)]

/-- The stamp words of an entry (R128). -/
def stampWords (stamp : Raw) : List Word := [stamp.extractLsb' 0 32, stamp.extractLsb' 32 32]

/-- The header words of a frame entry, kind 0 RX_FRAME, 1 TX_ECHO (R128, R129). -/
def frameHeader (stamp : Raw) (gen : BitVec 4) (kind : Nat) (f : Frame) : List Word :=
  stampWords stamp ++ [identWord f, kindWord f.dlc.toNat kind f.fdf f.brs f.esi gen]

/-- The words of an RX_FRAME entry (R128, R129). -/
def rxWords (stamp : Raw) (gen : BitVec 4) (f : Frame) : List Word :=
  frameHeader stamp gen 0 f ++ wordsOf (fitTo (frameLen f) f.data)

/-- The completion word of a TX_ECHO entry (R130). -/
def completionWord (code : Nat) (i : LqIdx) : Word := pack [(0, code), (4, i.val)]

/-- The words of a TX_ECHO entry of a sent frame (R130). -/
def txWords (stamp : Raw) (gen : BitVec 4) (f : Frame) (code : Nat) (i : LqIdx) : List Word :=
  frameHeader stamp gen 1 f ++ wordsOf (fitTo (frameLen f) f.data) ++ [completionWord code i]

/-- The words of a TX_ECHO entry that sends no frame: dlc 0, no payload (R130). -/
def unsentWords (stamp : Raw) (gen : BitVec 4) (f : Frame) (code : Nat) (i : LqIdx) : List Word :=
  stampWords stamp ++ [identWord f, kindWord 0 1 f.fdf f.brs false gen, completionWord code i]

/-- The words of an entry of another kind with a payload (R128, R131 to R134, R184). -/
def plainWords (stamp : Raw) (gen : BitVec 4) (kind : Nat) (w2 : Word) (payload : List Word) : List Word :=
  stampWords stamp ++ [w2, kindWord payload.length kind false false false gen] ++ payload

/-- Word 3 with its entry sequence (R135). -/
def withSeq (ws : List Word) (seq : BitVec 16) : List Word :=
  ws.set 3 ((ws.getD 3 0 &&& 0x0000FFFF#32) ||| (seq.setWidth 32 <<< 16))

/-! ### Occupancy (R141, R148) -/

/-- The journal's capacity in words. -/
def jCap (j : Journal) : Nat := j.cap.toNat

/-- The first occupied position: the mark under HOLD, else the read position (R148). -/
def jLow (j : Journal) : Nat :=
  match j.mark with
  | some m => if j.hold then min m j.rd else j.rd
  | none => j.rd

/-- CHn_JWORDS (R141). -/
def jWords (j : Journal) : Nat := j.wr - j.rd

/-- CHn_JOCC (R141). -/
def jOcc (j : Journal) : Nat := j.wr - jLow j + j.tent.length

/-- Places that a frame in progress keeps from other entries: the four of its first burst, of which a frame without data has written three
(R136, R144). -/
def jHeld (j : Journal) : Nat := if j.tent = [] then 0 else 4 - j.tent.length

/-- Free places (R144). -/
def jFree (j : Journal) : Nat := jCap j - jOcc j

/-- The words an item takes up in the staging buffer: a marker takes the place of words already there, an unsent completion waits in the
launch-queue unit (R272; log 92). -/
def itemWords (it : JItem) : Nat :=
  match it with
  | .tent ws _ => ws.length
  | .fin ws _ => ws.length
  | .whole ws none => ws.length
  | .whole _ (some _) => 0
  | .marker _ => 0

/-- Words that wait in the staging buffer (R272). -/
def stagedWords (j : Journal) : Nat := j.staging.foldl (fun a it => a + itemWords it) 0

/-- The SRAM offset of a journal position. -/
def jPlace (j : Journal) (p : Nat) : Nat := j.base.getD 0 + 4 * (p % jCap j)

/-- CHn_JPKTS: END marks among the visible words (R141). -/
def jPkts (d : Device) (n : ChanNo) : Nat :=
  let j := (chan d n).jn
  ((List.range (jWords j)).filter (fun i => tabGet false d.sram.ends (jPlace j (j.rd + i)))).length

/-! ### The ends of launch-queue entries that a TX_ECHO entry decides (R122) -/

/-- The entry i of channel n, an unlisted one FREE. -/
def lqEnt (d : Device) (n : ChanNo) (i : LqIdx) : LqEnt := tabGet {} (chan d n).lq.ents i.val

/-- The SRAM offset of word w of entry i (R107). -/
def lqPlace (d : Device) (n : ChanNo) (i : LqIdx) (w : Nat) : Nat := (chan d n).lq.base.getD 0 + 96 * i.val + 4 * w

/-- Words 0 to 19 of entry i as a fetch delivers them; none before the queue is placed (R107, R270). -/
def lqFetched (d : Device) (n : ChanNo) (i : LqIdx) : List Word :=
  if (chan d n).lq.base.isSome then (List.range 20).map (fun w => (delivered d (lqPlace d n i w)).word) else []

/-- Entry i as the launch-queue unit keeps it. -/
def lqKeep (d : Device) (n : ChanNo) (i : LqIdx) (e : LqEnt) : Device :=
  onLq d n (fun q => { q with ents := tabSet {} q.ents i.val e })

/-- Entry i changed: it is fetched as it leaves FREE, and the unit holds what it fetched until it is FREE again (R256, R462; log 160). -/
def lqHold (d : Device) (n : ChanNo) (i : LqIdx) (e : LqEnt) : Device :=
  lqKeep d n i (if e.st = .free then {}
    else { e with words := if (lqEnt d n i).st = .free then lqFetched d n i else (lqEnt d n i).words })

/-- Entry i changed; the partner is told its state (R284). -/
def lqPut (d : Device) (n : ChanNo) (i : LqIdx) (e : LqEnt) (committed : Bool) : Device :=
  let d := lqHold d n i e
  mirrorChan d n (.lqState n i e.st e.cancel e.late committed)

/-- Entry i becomes FREE. -/
def lqFree (d : Device) (n : ChanNo) (i : LqIdx) : Device := lqPut d n i {} false

/-- The entry that a TX_ECHO entry frees, if any, becomes FREE (R122), unless a mirrored completion has freed it since (R284). -/
def freeEcho (d : Device) (n : ChanNo) (echo : Option LqIdx) : Device :=
  match echo with
  | some i => if (lqEnt d n i).closing then lqFree d n i else d
  | none => d

/-! ### Staging and losing (R144, R145, R272, R273) -/

/-- The item belongs to the frame in progress. -/
def ofFrame (it : JItem) : Bool :=
  match it with
  | .tent _ _ => true
  | .fin _ _ => true
  | .whole _ _ => false
  | .marker _ => false

/-- What an item frees when its entry is complete or lost. -/
def echoOf (it : JItem) : Option LqIdx :=
  match it with
  | .tent _ _ => none
  | .fin _ e => e
  | .whole _ e => e
  | .marker _ => none

/-- The items of the oldest frame in the staging buffer removed, and what its end frees if its end was among them. -/
def dropFirst (l : List JItem) : List JItem × Option (Option LqIdx) :=
  match l with
  | [] => ([], none)
  | .tent _ _ :: r => dropFirst r
  | .fin _ e :: r => (r, some e)
  | .whole ws e :: r => let (r', x) := dropFirst r; (.whole ws e :: r', x)
  | .marker ws :: r => let (r', x) := dropFirst r; (.marker ws :: r', x)

/-- The end of an earlier frame still waits: its last word, or its marker. -/
def hasFin (l : List JItem) : Bool := l.any (fun it => match it with
  | .fin _ _ => true
  | .marker _ => true
  | _ => false)

/-- The items of the frame in progress, those after the last end of a frame, removed. -/
def dropCurrent (l : List JItem) : List JItem :=
  match l with
  | [] => []
  | .tent ws g :: r => if hasFin r then .tent ws g :: dropCurrent r else dropCurrent r
  | .fin ws e :: r => .fin ws e :: dropCurrent r
  | .whole ws e :: r => .whole ws e :: dropCurrent r
  | .marker ws :: r => .marker ws :: dropCurrent r

/-- Physically write an entry at the end of the visible words, END on its last, and make it visible (R135, R136). -/
def placeWords (d : Device) (n : ChanNo) (ws : List Word) : Device :=
  let j := (chan d n).jn
  let d := (List.range ws.length).foldl
    (fun d i => sramSetWord d (jPlace j (j.wr + i)) (ws.getD i 0) (decide (i + 1 = ws.length))) d
  onJn d n (fun j => { j with wr := j.wr + ws.length })

/-- A write into the place at the mark makes the mark not valid and sets jmark_lost (R147); the places that a frame in progress keeps for its
marker are reached with its first burst, so that no later rewind takes them (R136, R144; log 132). -/
def markCheck (j : Journal) : Journal :=
  match j.mark with
  | some m => if j.wr + j.tent.length + jHeld j > m + jCap j then { j with mark := none, markLost := true } else j
  | none => j

/-- The fabric time of an entry's own stamp, converted with its own generation (R288). -/
def entryTime (d : Device) (ws : List Word) : Option (BitVec 80) :=
  let h := histOf d (BitVec.ofNat 4 (fld (ws.getD 3 0) 12 4))
  let stamp : Raw := (ws.getD 1 0) ++ (ws.getD 0 0)
  if h.valid then some (ftAt h.rate h.offset stamp.toNat 1) else none

/-- Fabric time a is at or before b, in signed order of their difference. -/
def timeLe (a b : BitVec 80) : Bool := decide (0 ≤ (b - a).toInt)

/-- An entry with its sequence becomes visible; the non-holder consumes it on arrival when its stamp is at or before the mirrored position
(R135, R136, R288): behind words not yet popped it takes no place (log 93). -/
def showEntry (d : Device) (n : ChanNo) (ws : List Word) : Device :=
  let j := (chan d n).jn
  let consumed := match j.consumeTo, entryTime d ws with
    | some t, some e => timeLe e t && !holdsChan d n
    | _, _ => false
  if consumed && decide (j.rd ≠ j.wr) then d
  else
    let d := onJn (placeWords d n ws) n markCheck
    if consumed then onJn d n (fun j => { j with rd := j.wr, popHdr := [], posTime := (entryTime d ws).or j.posTime }) else d

/-- The next entry sequence is taken (R135). -/
def takeSeq (d : Device) (n : ChanNo) : Device := onJn d n (fun j => { j with nextSeq := j.nextSeq + 1 })

/-- An entry becomes visible with the next entry sequence (R135, R136). -/
def makeVisible (d : Device) (n : ChanNo) (ws : List Word) : Device :=
  showEntry (takeSeq d n) n (withSeq ws (chan d n).jn.nextSeq)

/-- The MARKER words of a lost entry (R134): its stamp, kind, written words and correction generation. -/
def markerWords (lost : List Word) (written : Nat) (gen : BitVec 4) : List Word :=
  [lost.getD 0 0, lost.getD 1 0, pack [(0, 1), (8, fld (lost.getD 3 0) 4 3), (16, written)],
   kindWord 0 5 false false false gen]

/-- The TRUNCATED marker of the entry whose words are tentative, with the sequence that its entry takes (R134, R135, R144). -/
def markerOf (j : Journal) : List Word := withSeq (markerWords j.tent j.tent.length j.tentGen) j.nextSeq

/-- A marker takes the four places of the frame's first burst, whose tentative words are released (R144); they are there in every state of a
run, since the frame has kept them (log 132). -/
def writeMarker (d : Device) (n : ChanNo) (ws : List Word) : Device :=
  let d := onJn d n (fun j => { j with tent := [] })
  if 4 ≤ jFree (chan d n).jn then showEntry d n ws else d

/-- An entry is lost: it is counted and takes its sequence, and the launch-queue entry of its completion becomes FREE (R122, R135, R144). -/
def countLoss (d : Device) (n : ChanNo) (echo : Option LqIdx) : Device :=
  freeEcho (takeSeq (onJn d n (fun j => { j with ovf := cntUp j.ovf })) n) n echo

/-- The entry of the frame in progress is lost: its later words are discarded as they complete, and where words of it are in the journal its
marker is the next to be written (R144, R273). -/
def loseFrame (d : Device) (n : ChanNo) (echo : Option LqIdx) : Device :=
  countLoss (onJn d n (fun j => { j with
    staging := (if hasFin j.staging ∨ j.tent = [] then [] else [.marker (markerOf j)]) ++ dropCurrent j.staging
    losing := true })) n echo

/-- The entry whose words stand first in the staging buffer is lost as its write fails (R144). The TX_ECHO of a frame still on the bus frees its
launch-queue entry when the frame's outcome is decided, since the loss has no effect on the bus (R145; log 129). -/
def loseOldest (d : Device) (n : ChanNo) : Device :=
  let j := (chan d n).jn
  let (st, x) := dropFirst j.staging
  let d := countLoss (onJn d n (fun j => { j with staging := st, losing := j.losing || x.isNone })) n (x.getD none)
  if j.tent = [] then d else writeMarker d n (markerOf j)

/-- The frame's entry is over: the next frame starts afresh. -/
def frameOver (d : Device) (n : ChanNo) : Device := onJn d n (fun j => { j with frameWords := 0, frameTotal := 0, losing := false })

/-- Stage one item: with more words than the buffer takes the entry is lost (R273). A frame whose entry is already lost
stages nothing (R144). -/
def stage (d : Device) (n : ChanNo) (it : JItem) (len : Nat) : Device :=
  let j := (chan d n).jn
  if ofFrame it && j.losing then freeEcho d n (echoOf it)
  else if stagedWords j + len ≤ 24 then onJn d n (fun j => { j with staging := j.staging ++ [it] })
  else
    let d := { d with con := { d.con with starve := setBit d.con.starve n.val } }
    if ofFrame it then loseFrame d n (echoOf it) else countLoss d n (echoOf it)

/-- The journal of channel n is placed, so entries are appended (R126). -/
def journalOn (d : Device) (n : ChanNo) : Bool := d.glb.latUp && (chan d n).jn.base.isSome

/-- Append an entry written in one burst (R136); without a placed journal nothing is appended (R126). The completion of an outcome in which
no frame is sent waits in its order and takes no room in the staging buffer (R118, R121, R125; log 92). -/
def appendEntry (d : Device) (n : ChanNo) (ws : List Word) (echo : Option LqIdx) : Device :=
  if journalOn d n then stage d n (.whole ws echo) (itemWords (.whole ws echo)) else freeEcho d n echo

/-- Append a BUS_STATE entry (R132). -/
def busState (d : Device) (n : ChanNo) (stamp : Raw) (gen : BitVec 4) (code : Nat) (w4 : Word) : Device :=
  appendEntry d n (plainWords stamp gen 3 (pack [(0, code)]) [w4]) none

/-- Append a WAKE_SLEEP entry (R133, R184). -/
def wakeSleep (d : Device) (n : ChanNo) (w2 : Word) (payload : List Word) : Device :=
  appendEntry d n (plainWords d.tim.raw d.tim.gen 4 w2 payload) none

/-- Stage the words of the frame in progress that have not been staged: the first burst, then one payload word at a time,
the last word with END when fin is set (R136). -/
def stageFrame (d : Device) (n : ChanNo) (ws : List Word) (fin : Bool) (echo : Option LqIdx) : Device :=
  if journalOn d n then
    let body := if fin then ws.dropLast else ws
    let done := (chan d n).jn.frameWords
    let burst := body.take 4
    let gen := BitVec.ofNat 4 (fld (ws.getD 3 0) 12 4)
    let d := if done = 0 && decide (burst ≠ []) then stage d n (.tent burst gen) burst.length else d
    let d := (body.drop (max done burst.length)).foldl (fun d w => stage d n (.tent [w] gen) 1) d
    let d := onJn d n (fun j => { j with frameWords := max done body.length })
    if fin then frameOver (stage d n (.fin (ws.drop body.length) echo) 1) n else d
  else if fin then freeEcho d n echo else d

/-- A frame breaks, or its attempt ends: its tentative words and those still staged are released (R136). -/
def releaseFrame (d : Device) (n : ChanNo) : Device :=
  frameOver (onJn d n (fun j =>
    if decide (j.frameWords = 0) then j
    else { j with tent := if hasFin j.staging then j.tent else [], staging := dropCurrent j.staging })) n

/-! ### Writing (R136, R143, R144) -/

/-- The free places an item needs (R136): four for the first burst of a frame; a frame's own words find what it keeps from other
entries. -/
def roomFor (j : Journal) (it : JItem) : Nat :=
  match it with
  | .tent ws _ => if j.tent = [] then max 4 ws.length else ws.length
  | .fin ws _ => ws.length
  | .whole ws _ => ws.length + jHeld j
  | .marker _ => 0

/-- The oldest staged item written (R136), or its entry lost (R144). -/
def writeItem (d : Device) (n : ChanNo) (it : JItem) (rest : List JItem) : Device :=
  let j := (chan d n).jn
  if jFree j < roomFor j it then
    match it with
    | .tent _ _ => loseOldest d n
    | .fin _ _ => loseOldest d n
    | .whole _ e => countLoss (onJn d n (fun j => { j with staging := rest })) n e
    | .marker _ => d
  else
    let d := onJn d n (fun j => { j with staging := rest })
    match it with
    | .tent ws g => onJn d n (fun j => markCheck { j with tent := j.tent ++ ws, tentGen := if j.tent = [] then g else j.tentGen })
    | .fin ws e =>
      let d := onJn d n (fun j => { j with tent := [] })
      freeEcho (makeVisible d n (j.tent ++ ws)) n e
    | .whole ws e => freeEcho (makeVisible d n ws) n e
    | .marker ws => writeMarker d n ws

/-- The journal writer's turn at the bank of its next place (R136, R256, R462): with the bank its own or idle the oldest staged item is
written, else it waits with its request outstanding. -/
def writeStaged (d : Device) (n : ChanNo) : Device :=
  let j := (chan d n).jn
  match j.staging with
  | [] => d
  | it :: rest => withBank d (qChan n, .journal) (jPlace j j.wr) (fun d => writeItem d n it rest)

/-! ### Reading (R137 to R140, R146 to R150) -/

/-- What a pop answers: the word and its four tag bits VALID, END, CORR, UNCORR (R137). -/
abbrev Popped := Word × BitVec 4

/-- The start of the entry that position p stands in or ends, found by END marks; an entry has at most 21 words. -/
def entryStart (d : Device) (j : Journal) (p fuel : Nat) : Nat :=
  match fuel with
  | 0 => p
  | k + 1 => if p = 0 then 0 else if tabGet false d.sram.ends (jPlace j (p - 1)) then p else entryStart d j (p - 1) k

/-- Tell the partner what the reader did, with the mirrored position: the fabric time of the last whole entry popped, 0 before the
first (R284, R288; log 93). -/
def mirrorPos (d : Device) (n : ChanNo) (op : JposOp) : Device :=
  mirrorChan d n (.jpos n op ((chan d n).jn.posTime.getD 0))

/-- What a popped word makes of the position (R288): header words gather until the END word, whose entry's time it becomes. -/
def notePop (d : Device) (j : Journal) (w : Word) (endMark : Bool) : Journal :=
  let hdr := if j.popHdr.length < 4 then j.popHdr ++ [w] else j.popHdr
  if endMark then { j with popHdr := [], posTime := (entryTime d hdr).or j.posTime } else { j with popHdr := hdr }

/-- The fabric time of the last visible entry (R288): its header stands in SRAM, or was popped. -/
def lastTime (d : Device) (j : Journal) : Option (BitVec 80) :=
  if j.rd = j.wr then j.posTime
  else
    let s := entryStart d j (j.wr - 1) 24
    let w := fun i => sramWord d (jPlace j (s + i))
    (entryTime d (j.popHdr.take (j.rd - s) ++ ([0, 1, 2, 3].map w).drop (j.rd - s))).or j.posTime

/-- Pop one word (R137, R138, R150). -/
def popWord (d : Device) (n : ChanNo) : Popped × Device :=
  let j := (chan d n).jn
  if j.rd < j.wr then
    let (c, d) := checkedRead d (jPlace j j.rd)
    let d := onJn d n (fun j => { notePop d j c.word c.endMark with
      rd := j.rd + 1
      corr := if c.corr then cntUp j.corr else j.corr
      uncorr := if c.uncorr then cntUp j.uncorr else j.uncorr })
    let d := if c.uncorr then eventNow d 5 n.val (chan d n).jn.uncorr.count.toNat else d
    let d := if c.endMark then mirrorPos d n .pop else d
    ((c.word, BitVec.ofNat 4 (1 + 2 * c.endMark.toNat + 4 * c.corr.toNat + 8 * c.uncorr.toNat)), d)
  else ((0, 0), d)

/-- Pop up to count words in order (R139). -/
def popMany (d : Device) (n : ChanNo) (count : Nat) : List Popped × Device :=
  match count with
  | 0 => ([], d)
  | k + 1 =>
    let (p, d) := popWord d n
    let (ps, d) := popMany d n k
    (p :: ps, d)

/-- set_mark (R146). -/
def setMarkOp (d : Device) (n : ChanNo) : Device :=
  mirrorPos (onJn d n (fun j => { j with mark := some j.rd, markHdr := j.popHdr, markTime := j.posTime })) n .setMark

/-- rewind (R146). -/
def rewindOp (d : Device) (n : ChanNo) : Device :=
  match (chan d n).jn.mark with
  | some m => mirrorPos (onJn d n (fun j => { j with rd := m, popHdr := j.markHdr, posTime := j.markTime })) n .rewind
  | none => onJn d n (fun j => { j with rewindRefused := true })

/-- clear_mark (R146). -/
def clearMarkOp (d : Device) (n : ChanNo) : Device :=
  mirrorPos (onJn d n (fun j => { j with mark := none })) n .clearMark

/-- flush (R149). -/
def flushOp (d : Device) (n : ChanNo) : Device :=
  mirrorPos (onJn d n (fun j => { j with rd := j.wr, popHdr := [], posTime := lastTime d j })) n .flush

/-- A write to CHn_JCTRL: the policy, which CHn_JOCC counts by at once (R148; log 123), then the actions in bit order (R146). -/
def writeJctrl (d : Device) (n : ChanNo) (v : Word) : Device :=
  let old := (chan d n).jn.hold
  let d := onJn d n (fun j => { j with hold := v.getLsbD 0 })
  let d := if old = v.getLsbD 0 then d else mirrorPos d n (.policy (v.getLsbD 0))
  let d := if v.getLsbD 8 then setMarkOp d n else d
  let d := if v.getLsbD 9 then rewindOp d n else d
  let d := if v.getLsbD 10 then clearMarkOp d n else d
  if v.getLsbD 11 then flushOp d n else d

/-- The journal emptied by a new capacity or placement; seq and counters go on (R151), and the words of a frame in progress go
to the new journal (R361; log 35). -/
def emptyJournal (j : Journal) (base : Nat) (cap : BitVec 19) : Journal :=
  { j with base := some base, cap := cap, rd := 0, wr := 0, mark := none, popHdr := [], posTime := none }

end Sys2Proof.Machine
end

