-- ==== Sys2Proof/Machine/BusBits.lean ====
section
/-! DEFINITION. The bits of a sent frame (R72, R92, R93, R120, R460): fields, dynamic and fixed stuff bits, stuff count and CRC, as
ISO 11898-1:2015 lays them out (PRESUMED, log 90). -/

namespace Sys2Proof.Machine

/-- Bits of a frame, recessive true, each with its field. -/
abbrev Bits := List (Bool × BusField)

/-- The code of a field (R93). -/
def fieldCode (x : BusField) : Nat :=
  match x with
  | .sof => 0x00
  | .baseId => 0x01
  | .rtr => 0x02
  | .ide => 0x03
  | .extId => 0x04
  | .rtrExt => 0x05
  | .fdf => 0x06
  | .res => 0x07
  | .brs => 0x08
  | .esi => 0x09
  | .dlc => 0x0A
  | .data => 0x0B
  | .stuffCount => 0x0C
  | .crc => 0x0D
  | .crcDelim => 0x0E
  | .ackSlot => 0x0F
  | .ackDelim => 0x10
  | .eof => 0x11
  | .intermission => 0x12
  | .errorFlag => 0x13
  | .errorDelim => 0x14
  | .overloadFlag => 0x15
  | .overloadDelim => 0x16
  | .suspension => 0x17
  | .idle => 0x18

/-- A number in len bits, the most significant first. -/
def msbBits (len v : Nat) : List Bool := (List.range len).map (fun i => v.testBit (len - 1 - i))

/-- Bits of one field. -/
def inField (x : BusField) (bs : List Bool) : Bits := bs.map (fun b => (b, x))

/-- The identifier and the bits between it and FDF (R72, R107). -/
def idBits (f : Frame) : Bits :=
  let remote := f.rtr && !f.fdf
  if f.ide then
    inField .baseId (msbBits 11 (f.ident.toNat / 2 ^ 18)) ++ inField .rtr [true] ++ inField .ide [true]
      ++ inField .extId (msbBits 18 (f.ident.toNat % 2 ^ 18)) ++ inField .rtrExt [remote]
  else inField .baseId (msbBits 11 f.ident.toNat) ++ inField .rtr [remote] ++ inField .ide [false]

/-- FDF to ESI, or the reserved bits of a classical frame (R72, R73, R75). -/
def formatBits (f : Frame) : Bits :=
  if f.fdf then inField .fdf [true] ++ inField .res [false] ++ inField .brs [f.brs] ++ inField .esi [f.esi]
  else inField .fdf (List.replicate (if f.ide then 2 else 1) false)

/-- A frame from SOF to the end of its data field, without stuff bits. -/
def bodyBits (f : Frame) : Bits :=
  inField .sof [false] ++ idBits f ++ formatBits f ++ inField .dlc (msbBits 4 f.dlc.toNat)
    ++ inField .data ((fitTo (frameLen f) f.data).flatMap (fun b => msbBits 8 b.toNat))

/-- Dynamic stuff bits: after five equal bits one of the other value, in the field of the bit before it; after the last bit only with
tail. prev is the bit before, run how many equal bits end there. -/
def stuffFrom (tail prev : Bool) (run : Nat) (x : BusField) (bs : Bits) : Bits :=
  match bs with
  | [] => if tail && decide (run = 5) then [(!prev, x)] else []
  | (b, y) :: r =>
    if run = 5 then (!prev, x) :: (b, y) :: stuffFrom tail b (if b = prev then 1 else 2) y r
    else (b, y) :: stuffFrom tail b (if b = prev then run + 1 else 1) y r

/-- A frame's bits with their dynamic stuff bits. An FD frame has none after its data field, where the fixed stuff bit takes its
place (R460). -/
def dynamicStuff (tail : Bool) (bs : Bits) : Bits := stuffFrom tail true 0 .sof bs

/-- Fixed stuff bits: one before each four bits, of the value opposite to the bit before it and in its field; due tells how many bits
go first. -/
def fixedFrom (prev : Bool) (x : BusField) (due : Nat) (bs : Bits) : Bits :=
  match bs with
  | [] => []
  | (b, y) :: r =>
    match due with
    | 0 => (!prev, x) :: (b, y) :: fixedFrom b y 3 r
    | k + 1 => (b, y) :: fixedFrom b y k r

/-- One bit of a CRC of w bits. -/
def crcShift (w poly c : Nat) (b : Bool) : Nat :=
  if b = c.testBit (w - 1) then c * 2 % 2 ^ w else (c * 2 % 2 ^ w) ^^^ poly

/-- A CRC over bits. -/
def crcBits (w poly start : Nat) (bs : Bits) : Nat := bs.foldl (fun c b => crcShift w poly c b.1) start

/-- The stuff count of an FD frame: three bits Gray-coded, then even parity. -/
def stuffCountBits (count : Nat) : List Bool :=
  let g := count % 8 ^^^ count % 8 / 2
  msbBits 3 g ++ [g.testBit 0 ^^ g.testBit 1 ^^ g.testBit 2]

/-- CRC delimiter, acknowledge and EOF as a transmitter sends them. -/
def tailBits : Bits :=
  inField .crcDelim [true] ++ inField .ackSlot [true] ++ inField .ackDelim [true] ++ inField .eof (List.replicate 7 true)

/-- The stuff count and CRC of an FD frame whose stuffed bits up to the data field are bs: CRC-17 up to 16 data bytes, else CRC-21. -/
def fdCheck (f : Frame) (bs : Bits) : Bits :=
  let sc := inField .stuffCount (stuffCountBits (bs.length - (bodyBits f).length))
  let crc := if frameLen f ≤ 16 then msbBits 17 (crcBits 17 0x1685B (2 ^ 16) (bs ++ sc))
    else msbBits 21 (crcBits 21 0x102899 (2 ^ 20) (bs ++ sc))
  sc ++ inField .crc crc

/-- The bits of a frame as sent, from SOF to the last bit of EOF. -/
def frameBits (f : Frame) : Bits :=
  if f.fdf then
    let bs := dynamicStuff false (bodyBits f)
    bs ++ fixedFrom (bs.getLastD (false, .sof)).1 .stuffCount 0 (fdCheck f bs) ++ tailBits
  else
    let bs := bodyBits f
    dynamicStuff true (bs ++ inField .crc (msbBits 15 (crcBits 15 0x4599 0 bs))) ++ tailBits

end Sys2Proof.Machine
end

