-- ==== Sys2Proof/Machine/Legal.lean ====
section
/-! DEFINITION. Which values a write of a register accepts: the reserved codes and ranges of R7 and the rules of the registers
themselves. A register write and a structure image use the same tests (R348 to R356). -/

namespace Sys2Proof.Machine

/-- A field lies in a range. -/
def inRange (w : Word) (lo len a b : Nat) : Bool := decide (a ≤ fld w lo len) && decide (fld w lo len ≤ b)

/-- The reserved bits of a word are 0. -/
def clear0 (w mask : Word) : Bool := decide (w &&& mask = 0)

/-- The nominal bit of CHn_NBT in B cycles (R84). -/
def nominalBit (v : Word) : Nat := (fld v 0 8 + 1) * (3 + fld v 8 8 + fld v 16 7)

/-- The data bit of CHn_DBT in B cycles (R84). -/
def dataBit (v : Word) : Nat := (fld v 0 5 + 1) * (3 + fld v 5 5 + fld v 10 4)

/-- The rules of CHn_NBT by itself (R84, R85). -/
def nbtOk (nbt : Word) : Bool :=
  decide (fld nbt 8 8 ≠ 0) && decide (fld nbt 23 7 ≤ fld nbt 8 8) && decide (fld nbt 23 7 ≤ fld nbt 16 7)
    && decide (8 ≤ 3 + fld nbt 8 8 + fld nbt 16 7) && decide (80 ≤ nominalBit nbt) && decide (nominalBit nbt ≤ 8000)

/-- The rules of CHn_NBT and CHn_DBT together (R84, R85). -/
def timingOk (nbt dbt : Word) : Bool :=
  nbtOk nbt
    && decide (fld dbt 14 4 ≤ fld dbt 5 5) && decide (fld dbt 14 4 ≤ fld dbt 10 4)
    && decide (5 ≤ 3 + fld dbt 5 5 + fld dbt 10 4) && decide (10 ≤ dataBit dbt) && decide (dataBit dbt ≤ nominalBit nbt)

/-- CHn_WAKE_CFG (R188). -/
def wakeCfgOk (v : Word) : Bool := inRange v 8 8 5 50 && inRange v 16 4 0 8

/-- CHn_FW_CFG (R188). -/
def fwCfgOk (v : Word) : Bool := inRange v 0 10 10 1000 && inRange v 16 10 1 600

/-- CHn_SLP_CFG (R188). -/
def slpCfgOk (v : Word) : Bool := inRange v 0 8 10 255 && inRange v 8 8 1 255 && inRange v 16 8 1 255

/-- CHn_LINE_TIMERS (R70). -/
def timersOk (v : Word) : Bool := inRange v 0 9 10 500

/-- GLB_SENTd_CTRL (R71). -/
def orphanOk (v : Word) : Bool := inRange v 0 11 50 2000

/-- TIM_BCN_CFG (R214). -/
def bcnOk (v : Word) : Bool := inRange v 0 10 1 1000 && inRange v 12 4 2 15 && inRange v 16 10 10 1000

/-- PAIR_CFG (R303). -/
def pairCfgOk (v : Word) : Bool := inRange v 0 7 5 100

/-- The codes of MEk_CTXc_CFG (R326). -/
def ctxCodesOk (v : Word) : Bool := decide (fld v 10 2 ≠ 3)

/-- A PINS binding lies within the engine's 16 cells (R309, R326). -/
def ctxPinsOk (v : Word) : Bool := decide (fld v 10 2 ≠ 1) || decide (fld v 12 6 + fld v 18 4 + 1 ≤ 16)

/-- A context bound to a channel's journal as its consumer, and to which (R309). -/
def jrnChan (v : Word) : Option Nat := if fld v 10 2 = 2 ∧ v.getLsbD 22 = true then some (fld v 12 6) else none

/-- The codes of PCELLp_CFG (R317, R327). -/
def pinCodesOk (v : Word) : Bool := decide (fld v 0 3 ≠ 7) && decide (fld v 5 2 ≠ 3) && decide (fld v 7 2 ≠ 3)

/-- A mode an absorbed cell may run: OFF, LEVEL or CLOCK (R324). -/
def absorbedMode (v : Word) : Bool := decide (fld v 0 3 = 0) || decide (fld v 0 3 = 1) || decide (fld v 0 3 = 6)

/-- A slot entry: a requester or OPEN (R276, R352). -/
def slotOk (b : Nat) : Bool := decide (b ≤ 0x4D) || decide (b = 0x7F)

/-- TAG_IDENT (R408). -/
def tagIdentOk (v : Word) : Bool :=
  (decide (fld v 0 16 ≤ 0x3FF) || decide (fld v 0 16 = 0xFFFF)) && (decide (fld v 16 16 ≤ 0x1FF) || decide (fld v 16 16 = 0xFFFF))

/-- TAG_ROLE (R408). -/
def tagRoleOk (v : Word) : Bool := decide (fld v 0 2 ≠ 3)

/-- IMG_HOLD_CFG (R366). -/
def holdCfgOk (v : Word) : Bool := inRange v 0 14 10 10000

/-- A channel role accepts a requested line state (R44). -/
def roleAccepts (role req : Nat) : Bool := !(decide (role = 0) && decide (req ≠ 0)) && !(decide (role = 3) && decide (req = 2))

end Sys2Proof.Machine
end

