-- ==== Sys2Proof/Machine/ChannelOps.lean ====
section
/-! DEFINITION. The shared operations of a channel: engine modes, error entries, fault confinement, the launch queue, the
ballot's end, arming, and the line-state transitions (03, 04, 05, 07). -/

namespace Sys2Proof.Machine

/-! ### Modes (R80) and stamps -/

/-- The engine modes (R80). -/
inductive Mode where
  | idle | monitoring | driving
  deriving DecidableEq, Repr

/-- HEAD or MEMBER: a role that may drive (R79). -/
def mayDrive (r : Role) : Bool := decide (r = .head) || decide (r = .member)

/-- The mode of a channel (R80). -/
def chanMode (c : Channel) : Mode :=
  if c.fe.role = .off ∨ c.line.state = .off ∨ c.line.state = .sleep then .idle
  else if mayDrive c.fe.role && decide (c.line.state = .normal) && c.line.token && decide (c.fe.fcState ≠ .busOff)
  then .driving else .monitoring

/-- The mode of channel n: driving as soon as the condition of R80 holds, also while the engine still follows a frame in monitoring
mode (R83; log 95). -/
def modeOf (d : Device) (n : ChanNo) : Mode := chanMode (chan d n)

/-- drv_on of CHn_LINE_STAT, the drive gate less the level of TXD, which is no condition of the driver's being enabled (R49; log 94). -/
def drvOn (d : Device) (n : ChanNo) : Bool :=
  let c := chan d n
  decide (c.line.state = .normal) && mayDrive c.fe.role && c.line.token && !c.line.domHold && !c.line.moving
    && !d.sent[dieOf n].ot

/-- The raw counter less rxdly_ticks: a stored stamp taken now (R66, R91). -/
def busStamp (d : Device) (n : ChanNo) : Raw := d.tim.raw - (chan d n).line.rxdly.setWidth 64

/-! ### Error entries and fault confinement (R91 to R97, R131, R132) -/

/-- The code of an fc_state (R105). -/
def fcCode (s : FcSt) : Nat :=
  match s with
  | .active => 0
  | .passive => 1
  | .busOff => 2

/-- tec, rec and fc_state as laid out in CHn_FC (R131). -/
def fcWord (f : FrameEngine) : Word := pack [(0, f.tec.toNat), (16, f.recv.toNat), (24, fcCode f.fcState)]

/-- An error entry, copied to CHn_LASTERR (R91, R131). -/
def errorEntry (d : Device) (n : ChanNo) (kind : Nat) (field : BusField) (asTx : Bool) (idx : Nat) (stamp : Raw) (gen : BitVec 4) :
    Device :=
  let w := pack [(0, kind), (4, fieldCode field), (9, asTx.toNat), (10, idx)]
  let d := onFe d n (fun f => { f with lastErr := w })
  appendEntry d n (plainWords stamp gen 2 w [fcWord (chan d n).fe]) none

/-- A fault-confinement BUS_STATE entry (R132). -/
def fcEntry (d : Device) (n : ChanNo) (code : Nat) (stamp : Raw) (gen : BitVec 4) : Device :=
  busState d n stamp gen code (fcWord (chan d n).fe)

/-- TEC or REC at 96 or more (R95). -/
def fcWarn (f : FrameEngine) : Bool := decide (96 ≤ f.tec.toNat) || decide (96 ≤ f.recv.toNat)

/-- The fault-confinement state that the counters give (R94, R97). -/
def fcStateOf (tec : BitVec 9) (rcv : BitVec 8) : FcSt :=
  if 255 < tec.toNat then .busOff else if 127 < tec.toNat ∨ 127 < rcv.toNat then .passive else .active

/-- Fault confinement of the channel runs here: at a member that does not hold it and has fc_local = 0 the counters and the state are those of
the last FC cell (R287; log 157). -/
def runsFc (d : Device) (n : ChanNo) : Bool := !shadowFor d n || d.pair.fcLocal.getLsbD n.val

/-- The counters and the state set. -/
def fcSet (d : Device) (n : ChanNo) (tec : BitVec 9) (rcv : BitVec 8) (st : FcSt) : Device :=
  onFe d n (fun f => { f with tec := tec, recv := rcv, fcState := st })

/-- What a change of the counters from old brings: the events of R95 in its order, the sticky bits, the BUS_OFF event
(R97), and the mirror's FC cell. TEC or REC reaching 96 is one event, from both below to either at it (log 96). -/
def fcEvents (d : Device) (n : ChanNo) (old : FrameEngine) (stamp : Raw) (gen : BitVec 4) : Device :=
  let new := (chan d n).fe
  let st := new.fcState
  let d := if fcWarn new && !fcWarn old then fcEntry (onFe d n (fun f => { f with evt := setBit f.evt 2 })) n 4 stamp gen else d
  let d := if fcWarn old && !fcWarn new then fcEntry d n 5 stamp gen else d
  let d := if decide (st = .passive) && decide (old.fcState ≠ .passive)
    then fcEntry (onFe d n (fun f => { f with evt := setBit f.evt 1 })) n 6 stamp gen else d
  let d := if decide (st = .active) && decide (old.fcState ≠ .active) then fcEntry d n 7 stamp gen else d
  let d := if decide (st = .busOff) && decide (old.fcState ≠ .busOff)
    then
      let d := fcEntry (onFe d n (fun f => { f with evt := setBit f.evt 0 })) n 8 stamp gen
      event d 1 n.val stamp gen new.tec.toNat
    else d
  if decide (new.tec = old.tec) && decide (new.recv = old.recv) && decide (st = old.fcState) then d
  else mirrorChan d n (.fc n new.tec new.recv st)

/-- The counters and the state change, with all that brings. -/
def fcChange (d : Device) (n : ChanNo) (tec : BitVec 9) (rcv : BitVec 8) (st : FcSt) (stamp : Raw) (gen : BitVec 4) : Device :=
  fcEvents (fcSet d n tec rcv st) n (chan d n).fe stamp gen

/-! ### Launch-queue entries (R106, R107, R113) -/

/-- Word w of entry i: of a FREE entry as a read delivers it, else as the unit has fetched it; 0 before the queue is placed (log 160). -/
def lqWord (d : Device) (n : ChanNo) (i : LqIdx) (w : Nat) : Word :=
  let e := lqEnt d n i
  if (chan d n).lq.base.isSome then
    ((if e.st = .free then none else e.words[w]?)).getD (delivered d (lqPlace d n i w)).word
  else 0

/-- Entry i fetched anew, where it is not FREE. -/
def lqRefetch (d : Device) (n : ChanNo) (i : LqIdx) : Device :=
  if (lqEnt d n i).st = .free then d else lqKeep d n i { lqEnt d n i with words := lqFetched d n i }

/-- A fetch of entry i for the bus: its header and data words are counted under their check bits (R420). -/
def lqFetch (d : Device) (n : ChanNo) (i : LqIdx) (len : Nat) : Device :=
  if (chan d n).lq.base.isSome then
    memCount d ((List.range (4 + (len + 3) / 4)).map (fun w => lqPlace d n i w))
  else d

/-- Word w of entry i written, in SRAM and in what the unit has fetched; without a placed queue there is nothing to write. -/
def lqSetWord (d : Device) (n : ChanNo) (i : LqIdx) (w : Nat) (v : Word) : Device :=
  if (chan d n).lq.base.isSome then lqRefetch (sramSetWord d (lqPlace d n i w) v false) n i else d

/-- The data bytes of an entry. -/
def lqData (d : Device) (n : ChanNo) (i : LqIdx) (len : Nat) : List Byte :=
  (List.range len).map (fun b => BitVec.ofNat 8 ((lqWord d n i (4 + b / 4)).toNat / 256 ^ (b % 4)))

/-- The frame an entry asks for (R107); ESI is the fault-confinement state's (R75), BRS stands only in an FD frame. -/
def lqFrame (d : Device) (n : ChanNo) (i : LqIdx) : Frame :=
  let w0 := lqWord d n i 0
  let w1 := lqWord d n i 1
  let fdf := w1.getLsbD 4
  let rtr := w0.getLsbD 30
  let dlc := BitVec.ofNat 4 (fld w1 0 4)
  { ident := BitVec.ofNat 29 (fld w0 0 29), ide := w0.getLsbD 29, rtr := rtr, fdf := fdf, brs := w1.getLsbD 5
    esi := fdf && decide ((chan d n).fe.fcState ≠ .active), dlc := dlc, data := lqData d n i (dataLen fdf rtr dlc) }

/-- timed of an entry. -/
def lqTimed (d : Device) (n : ChanNo) (i : LqIdx) : Bool := (lqWord d n i 1).getLsbD 8

/-- The launch time of an entry. -/
def lqLaunch (d : Device) (n : ChanNo) (i : LqIdx) : Raw := lqWord d n i 3 ++ lqWord d n i 2

/-- echo_unsent of an entry. -/
def lqEcho (d : Device) (n : ChanNo) (i : LqIdx) : Bool := (lqWord d n i 1).getLsbD 11

/-- The arbitration key (R113). -/
def arbKey (f : Frame) : Nat :=
  let rtr := (f.rtr && !f.fdf).toNat
  if f.ide then fld (f.ident.setWidth 32) 18 11 * 2 ^ 21 + 2 ^ 20 + 2 ^ 19 + f.ident.toNat % 2 ^ 18 * 2 + rtr
  else f.ident.toNat % 2 ^ 11 * 2 ^ 21 + rtr * 2 ^ 20

/-- All entry numbers in index order. -/
def lqAll : List LqIdx := List.finRange 128

/-- An entry takes part in selection: READY and its outcome open (R106, R122). -/
def lqReady (d : Device) (n : ChanNo) (i : LqIdx) : Bool :=
  decide ((lqEnt d n i).st = .ready) && !(lqEnt d n i).closing

/-- Its frame may be sent: no FD frame leaves while the configuration in use has fd_en = 0 (R73, R86). DESIGN CHOICE: such an entry is
passed over and does not keep the others back (R114; log 142). -/
def lqSendable (d : Device) (n : ChanNo) (i : LqIdx) : Bool :=
  lqReady d n i && (!(lqWord d n i 1).getLsbD 4 || (chan d n).fe.cfgUse.getLsbD 0)

/-- The numbers of the queue's listed entries, in index order; every other entry is FREE. -/
def lqListed (d : Device) (n : ChanNo) : List LqIdx :=
  (chan d n).lq.ents.filterMap (fun e => if h : e.1 < 128 then some ⟨e.1, h⟩ else none)

/-- The better of two candidates in selection: the lower key, and on equal keys the one found first, of the lower index. -/
def betterKey (d : Device) (n : ChanNo) (best : Option (Nat × LqIdx)) (i : LqIdx) : Option (Nat × LqIdx) :=
  let k := arbKey (lqFrame d n i)
  match best with
  | some (kb, b) => if k < kb then some (k, i) else some (kb, b)
  | none => some (k, i)

/-- The entry on offer: the READY entry with the lowest key, the lower index on a tie (R113, R114). -/
def lqOffered (d : Device) (n : ChanNo) : Option LqIdx :=
  (((lqListed d n).filter (lqSendable d n)).foldl (betterKey d n) none).map (·.2)

/-- The ON_BUS entry, at most one (R106). -/
def lqOnBus (d : Device) (n : ChanNo) : Option LqIdx :=
  (lqListed d n).find? (fun i => decide ((lqEnt d n i).st = .onBus) && !(lqEnt d n i).closing)

/-- A raw value of the partner in this member's counter: less PAIR_RAWDIFF, rounded up to a whole tick (R461, R213). -/
def translate (d : Device) (r : Raw) : Raw := r - BitVec.ofInt 64 (d.pair.rawDiff.toInt / 65536)

/-- A raw value of this member as the partner translates it (R461): its PAIR_RAWDIFF is this one's negated. -/
def translateAbroad (d : Device) (r : Raw) : Raw := r - BitVec.ofInt 64 ((-d.pair.rawDiff).toInt / 65536)

/-- What is noted of entry i's launch time: as the partner holds it, or none where words 2 and 3 stand as the partner wrote them (R461). -/
def setAbroad (d : Device) (n : ChanNo) (i : LqIdx) (l : Option Raw) : Device :=
  onLq d n (fun q => { q with abroad := tabSet none q.abroad i.val l })

/-- Entries whose outcome is decided and whose TX_ECHO entry is still to come (R122) are settled for the partner, whose copy sends nothing
again: it is told that they are FREE, and none of them is shown ON_BUS any longer (R106, R284; log 103). -/
def settleClosing (d : Device) (n : ChanNo) (which : LqEnt → Bool) : Device :=
  ((lqListed d n).filter (fun i => (lqEnt d n i).closing && which (lqEnt d n i))).foldl (fun d i =>
    let e := lqEnt d n i
    let d := onLq d n (fun q => { q with ents := tabSet {} q.ents i.val { e with st := if e.st = .onBus then .ready else e.st } })
    mirrorChan d n (.lqState n i .free false false false)) d

/-- An outcome in which no frame is sent (R121, R122): with echo_unsent the entry keeps its former state until its TX_ECHO
entry is complete, without it it becomes FREE at once. -/
def lqUnsent (d : Device) (n : ChanNo) (i : LqIdx) (code : Nat) : Device :=
  if lqEcho d n i then
    let d := lqKeep d n i { lqEnt d n i with closing := true }
    appendEntry d n (unsentWords d.tim.raw d.tim.gen (lqFrame d n i) code i) (some i)
  else lqFree d n i

/-- A withdrawal or a flush (R117, R122, R123): an idle channel appends no TX_ECHO entry, so that its entry is FREE at once (R125; log 97). -/
def lqWithdraw (d : Device) (n : ChanNo) (i : LqIdx) (code : Nat) : Device :=
  if modeOf d n = .idle then lqFree d n i else lqUnsent d n i code

/-- A cancel meets an entry at the applying edge (R117); an entry whose outcome is decided and whose TX_ECHO entry is to come is past
any cancel: nothing happens (log 98). -/
def cancelEntry (d : Device) (n : ChanNo) (i : LqIdx) : Device :=
  let e := lqEnt d n i
  if e.closing then d
  else match e.st with
  | .free => onLq d n (fun q => { q with evt := setBit q.evt 2 })
  | .waiting => lqWithdraw d n i 4
  | .ready => lqWithdraw d n i 4
  | .onBus => lqPut d n i { e with cancel := true } false

/-! ### The end of a ballot (R160, R167, R184) -/

/-- The code of a ballot phase (R188). -/
def phaseCode (p : BalPh) : Nat :=
  match p with
  | .idle => 0
  | .offer => 1
  | .window => 2
  | .commit => 3
  | .descent => 4
  | .follow => 5

/-- Tell the partner the ballot's state (R284). -/
def mirrorBallot (d : Device) (n : ChanNo) (order : Bool) : Device :=
  let s := (chan d n).slp
  mirrorChan d n (.ballot n s.phase s.number s.windowEnd s.descentEnd order)

/-- The launch-queue entry of the ballot frames. -/
def ballotIdx (d : Device) (n : ChanNo) : LqIdx := (chan d n).slp.ballotIndex.toFin

/-- The channel may pre-arm for a SLEEP_COMMIT: it runs no ballot of its own (R170). -/
def mayPreArm (d : Device) (n : ChanNo) : Bool :=
  let c := chan d n
  mayDrive c.fe.role && (decide (c.slp.phase = .idle) || decide (c.slp.phase = .follow))
    && c.slp.planValid && c.slp.follow && decide (c.line.state = .normal)

/-- The recogniser is disarmed, its pre-arm or its wait for a calibration withdrawn. -/
def disarm (d : Device) (n : ChanNo) : Device :=
  onWake d n (fun w => { w with armed := false, preArmed := false, armWait := false })

/-- A ballot frame that waits is to be sent no more. -/
def dropFrame (d : Device) (n : ChanNo) : Device :=
  noWait (onSlp d n (fun s => { s with due := none })) (qChan n, .queue) .ballot

/-- The ballot returns to IDLE with a result (R160): its frame is withdrawn as by a cancel, the recogniser disarmed unless
the channel sleeps, BALLOT_END written, and the automatic ballot of R169 set. BALLOT_END counts holding nodes after a decision alone
(R184; log 99). -/
def ballotEnd (d : Device) (n : ChanNo) (result : Nat) : Device :=
  let s := (chan d n).slp
  if s.phase = .idle then d
  else
    let follower := decide (s.phase = .follow)
    let again := (decide (result = 2) || decide (result = 3)) && decide (s.runReballot ≠ 0)
    let d := onSlp d n (fun s => { s with
      phase := .idle, lastResult := BitVec.ofNat 4 result, holds := []
      reballotAt := if follower then s.reballotAt
        else if again then some (rawAdd d.tim.raw (s.runReballot.toNat * 1000 * msTicks)) else none })
    let d := if (decide (s.phase = .offer) || decide (s.phase = .commit)) && s.due.isSome then dropFrame d n
      else if (decide (s.phase = .offer) || decide (s.phase = .commit)) && decide ((lqEnt d n (ballotIdx d n)).st ≠ .free)
      then cancelEntry d n (ballotIdx d n) else d
    let d := if (chan d n).line.state = .sleep ∨ result = 1 then d else disarm d n
    let held := if result = 2 then s.holders.toNat else 0
    let no := if follower then s.followNo else s.number
    let d := wakeSleep d n (pack [(0, 2), (8, no.toNat), (16, result), (20, follower.toNat)]) [pack [(0, held)]]
    mirrorBallot d n false

/-- A launch-queue entry entering READY ends a ballot in COMMIT before its frame is ON_BUS, and any descent (R160, R165). -/
def queueAbort (d : Device) (n : ChanNo) (i : LqIdx) : Device :=
  let s := (chan d n).slp
  if !ballotHere d n then d
  else match s.phase with
  | .commit => if decide (i ≠ ballotIdx d n) && decide ((lqEnt d n (ballotIdx d n)).st ≠ .onBus) then ballotEnd d n 4 else d
  | .descent => ballotEnd d n 4
  | .follow => ballotEnd d n 4
  | _ => d

/-- An entry enters READY (R114). -/
def enterReady (d : Device) (n : ChanNo) (i : LqIdx) (e : LqEnt) : Device :=
  queueAbort (lqPut d n i { e with st := .ready } false) n i

/-- The own frame's attempt fails (R116): with a cancel latched the entry is not retried, else it is READY again with its
attributes unchanged (R96, R98, R102). code is CANCELLED_AT_LOSS or CANCELLED_AT_ERROR. -/
def attemptFails (d : Device) (n : ChanNo) (code : Nat) : Device :=
  match lqOnBus d n with
  | some i =>
    let e := lqEnt d n i
    if e.cancel then lqUnsent d n i code else enterReady d n i e
  | none => d

/-! ### The end of a frame that a copy's entry stands for (R286, R296) -/

/-- The en-passant bytes of entry i. -/
def stampBytes (d : Device) (n : ChanNo) (i : LqIdx) (b : Nat) : Bool :=
  let w1 := lqWord d n i 1
  let o := fld w1 12 6
  w1.getLsbD 10 && decide (o ≤ b) && decide (b < o + 8)

/-- A frame equals the frame of entry i in identifier, flags, DLC and data, the en-passant bytes aside. -/
def sameFrame (d : Device) (n : ChanNo) (i : LqIdx) (f : Frame) : Bool :=
  let e := lqFrame d n i
  decide (e.ident = f.ident) && decide (e.ide = f.ide) && decide ((e.rtr && !e.fdf) = (f.rtr && !f.fdf))
    && decide (e.fdf = f.fdf) && decide (e.brs = f.brs) && decide (e.dlc = f.dlc)
    && (List.range e.data.length).all (fun b => stampBytes d n i b || decide (e.data[b]? = f.data[b]?))

/-- An ON_BUS entry of a copy, its frame over: READY again, or, with a cancel latched, settled as a failed attempt (R296 step 2). -/
def settleEntry (d : Device) (n : ChanNo) (i : LqIdx) : Device :=
  let e := lqEnt d n i
  if e.cancel then lqWithdraw d n i 6 else enterReady d n i e

/-- Step 2 of a promotion (R296): an ON_BUS entry of the copy whose frame the engine does not follow is settled; one whose frame the
engine follows waits for the frame's end. -/
def settleOnBus (d : Device) (n : ChanNo) : Device :=
  match lqOnBus d n with
  | some i => if (chan d n).fe.activity = .none then settleEntry d n i else d
  | none => d

/-- The frame that a promoted member still followed ends (R296 step 2): a valid one completes the entry as a witness does (R286), any
other end settles it. An ON_BUS entry of a held channel whose engine is no transmitter is such an entry. -/
def followedEnds (d : Device) (n : ChanNo) (f : Option Frame) : Device :=
  if holdsChan d n && decide ((chan d n).fe.activity ≠ .transmitting) then
    match lqOnBus d n with
    | some i => if f.any (fun f => sameFrame d n i f) then lqFree d n i else settleEntry d n i
    | none => d
  else d

/-! ### Committing an entry (R109, R111, R112) -/

/-- Reserved bits 0 and the format rules of check 4 (R107, R109). -/
def lqFormatOk (d : Device) (n : ChanNo) (i : LqIdx) : Bool :=
  let w0 := lqWord d n i 0
  let w1 := lqWord d n i 1
  !w0.getLsbD 31 && decide (fld w1 6 2 = 0) && decide (fld w1 18 14 = 0)
    && (w0.getLsbD 29 || decide (fld w0 11 18 = 0)) && (!w1.getLsbD 4 || !w0.getLsbD 30) && (w1.getLsbD 4 || !w1.getLsbD 5)

/-- Check 6 (R109). -/
def lqStampOk (d : Device) (n : ChanNo) (i : LqIdx) : Bool :=
  let w1 := lqWord d n i 1
  let offs := fld w1 12 6
  !w1.getLsbD 10 || (!(lqWord d n i 0).getLsbD 30 && decide (offs ≤ 56) && decide (offs + 8 ≤ frameLen (lqFrame d n i)))

/-- A commit of entry i: its result code and the device after it (R109, R111, R112); an idle channel journals no drop (R125; log 97). -/
def commitEntry (d : Device) (n : ChanNo) (i : LqIdx) : Nat × Device :=
  let e := lqEnt d n i
  let refuse := fun (c : Nat) => (c, onLq d n (fun q => { q with evt := setBit q.evt 1 }))
  if e.st ≠ .free then refuse 4
  else if !mayDrive (chan d n).fe.role then refuse 5
  else if shadowFor d n then refuse 6
  else if !lqFormatOk d n i then refuse 7
  else if (lqWord d n i 1).getLsbD 4 && !(chan d n).fe.feCfg.getLsbD 0 then refuse 8
  else if !lqStampOk d n i then refuse 9
  else if !lqTimed d n i then (1, queueAbort (lqPut d n i { st := .ready } true) n i)
  else
    let l := lqLaunch d n i
    let now := d.tim.raw
    if now = l then (1, queueAbort (lqPut d n i { st := .ready } true) n i)
    else if laterThan l now then (1, lqPut d n i { st := .waiting } true)
    else if (lqWord d n i 1).getLsbD 9 then
      let d := onLq d n (fun q => { q with evt := setBit q.evt 4 })
      (3, if lqEcho d n i && decide (modeOf d n ≠ .idle) then appendEntry d n (unsentWords now d.tim.gen (lqFrame d n i) 7 i) none else d)
    else
      let d := onLq d n (fun q => { q with evt := setBit q.evt 3 })
      (2, queueAbort (lqPut d n i { st := .ready, late := true } true) n i)

/-- Word w of a FREE entry written; the partner is sent the word, and a launch time written here stands in this member's raw counter (R108,
R284, R461). -/
def lqPutWord (d : Device) (n : ChanNo) (i : LqIdx) (w : Nat) (v : Word) : Device :=
  let d := lqSetWord d n i w v
  let d := if paired d && (decide (w = 2) || decide (w = 3)) then setAbroad d n i (some (translateAbroad d (lqLaunch d n i))) else d
  mirrorChan d n (.lqWin n i w v)

/-- Words 0, 1 and 4 of a ballot frame: classical, base format, untimed, no stamp, no echo (R155, R158, R171). -/
def buildBallot (d : Device) (n : ChanNo) (i : LqIdx) (ident dlc : Nat) (data : Word) : Device :=
  lqPutWord (lqPutWord (lqPutWord d n i 0 (pack [(0, ident)])) n i 1 (pack [(0, dlc)])) n i 4 data

/-- The bank of entry i, none before the queue is placed (R256). -/
def lqBanks (d : Device) (n : ChanNo) (i : LqIdx) : List ResNo :=
  if (chan d n).lq.base.isSome then [bankOf (lqPlace d n i 0)] else []

/-- The same of an entry that only a FREE one is written, read or committed through (R108, R109). -/
def freeEntryNeeds (d : Device) (n : ChanNo) (i : LqIdx) : List ResNo :=
  if (lqEnt d n i).st = .free then lqBanks d n i else []

/-- A ballot frame written into ballot_index, where that is FREE, and committed; a HOLD whose window has ended meanwhile is not (R155, R158,
R171). -/
def commitBallot (d : Device) (n : ChanNo) (fr : BalFrame) : Device :=
  let i := ballotIdx d n
  let d := onSlp d n (fun s => { s with due := none })
  if fr.hold.any (fun t => reached d.tim.raw t) then d
  else
    let d := if (lqEnt d n i).st = .free then buildBallot d n i fr.ident fr.dlc fr.data else d
    let (code, d) := commitEntry d n i
    if decide (code = 1) && fr.hold.isSome then onSlp d n (fun s => { s with holdUntil := fr.hold }) else d

/-- The launch-queue unit writes and commits a ballot frame under the bank of its entry, or the frame waits for it (R256, R462). -/
def ballotFrame (d : Device) (n : ChanNo) (fr : BalFrame) : Device :=
  let x : Requester := (qChan n, .queue)
  let rs := lqBanks d n (ballotIdx d n)
  if canAll d x rs then commitBallot (useAll d x .ballot rs) n fr
  else awaitAll (onSlp d n (fun s => { s with due := some fr })) x .ballot rs

/-- The frame of the entry the channel has ON_BUS as sent (R119, R120): 8 bytes of the SOF stamp's fabric time inserted. -/
def stampedFrame (d : Device) (n : ChanNo) (i : LqIdx) (stamp : Raw) (gen : BitVec 4) : Frame :=
  let f := lqFrame d n i
  let w1 := lqWord d n i 1
  if w1.getLsbD 10 then
    let h := histOf d gen
    let ns := (ftAt h.rate h.offset stamp.toNat 1).extractLsb' 16 64
    let o := fld w1 12 6
    { f with data := f.data.take o ++ leBytes 8 ns.toNat ++ f.data.drop (o + 8) }
  else f

/-! ### Arming the recogniser (R163, R174, R175, R179, R180, R184) -/

/-- The lattice can measure a calibration: it runs and a structure load has completed since its release (R175). -/
def canMeasure (d : Device) : Bool := d.glb.latUp && d.glb.loaded

/-- The latest calibration is at most 10 ms old (R175). -/
def calFresh (d : Device) (n : ChanNo) : Bool :=
  (chan d n).wake.calValid && decide ((d.tim.raw - (chan d n).wake.calRaw).toNat ≤ 10 * msTicks)

/-- The recogniser takes a calibration and is armed, or pre-armed, with the settings of now; ARMED is written. -/
def armWith (d : Device) (n : ChanNo) (pre : Bool) (cal : BitVec 12) : Device :=
  let d := onWake d n (fun w => { w with
    armed := !pre, preArmed := pre, armWait := false, armedCal := cal, use := w.set, errCnt := 0 })
  wakeSleep d n (pack [(0, 7), (8, pre.toNat)]) [pack [(0, cal.toNat)]]

/-- Arm or pre-arm (R175): with the latest calibration, one measured first when that is old, or what the sentinel holds
when the lattice cannot measure, 33 taps if it holds none. -/
def armOp (d : Device) (n : ChanNo) (pre : Bool) : Device :=
  let w := (chan d n).wake
  if canMeasure d then
    if calFresh d n then armWith d n pre w.calTaps
    else onWake d n (fun w => { w with armWait := true, preArmed := pre, calBusy := true })
  else armWith d n pre (w.sentCal.getD 33#12)

/-- The arm strobe at the last-but-one bit of EOF: a pre-armed recogniser keeps the calibration it holds (R163). -/
def armStrobe (d : Device) (n : ChanNo) : Device :=
  let w := (chan d n).wake
  if w.preArmed && !w.armWait then armWith d n false w.armedCal
  else if w.armWait then onWake d n (fun w => { w with preArmed := false })
  else if w.armed then d else armOp d n false

/-! ### Leaving driving mode, losing the receiver (R83, R102 to R104) -/

/-- How many B cycles a bit of an own frame lasts (R84): of an FD frame with BRS the bits between the sample points of BRS and of the CRC
delimiter have the data bit timing. -/
def bitCycles (f : Frame) (nbt dbt : Word) (x : BusField) : Nat :=
  let n2 := (fld nbt 0 8 + 1) * (fld nbt 16 7 + 1)
  let d2 := (fld dbt 0 5 + 1) * (fld dbt 10 4 + 1)
  if !(f.fdf && f.brs) then nominalBit nbt
  else match x with
  | .brs => nominalBit nbt - n2 + d2
  | .esi => dataBit dbt
  | .dlc => dataBit dbt
  | .data => dataBit dbt
  | .stuffCount => dataBit dbt
  | .crc => dataBit dbt
  | .crcDelim => dataBit dbt - d2 + n2
  | _ => nominalBit nbt

/-- The bit of a frame in progress some T ticks after its SOF, by the engine's own bit timing (R84, R102): its field and its index, counted on
from i. -/
def bitAfter (len : BusField → Nat) (bits : Bits) (ticks i : Nat) : BusField × Nat :=
  match bits with
  | [] => (.sof, i)
  | [b] => (b.2, i)
  | b :: r => if ticks < 2 * len b.2 then (b.2, i) else bitAfter len r (ticks - 2 * len b.2) (i + 1)

/-- The T ticks since the edge of the frame in progress' SOF (R78), whatever rxdly_ticks has become. -/
def sinceSof (d : Device) (n : ChanNo) : Nat := (d.tim.raw - (chan d n).fe.sofRaw).toNat

/-- The field and bit index of the bit in progress of the channel's own frame (R91, R102). -/
def ownBit (d : Device) (n : ChanNo) : BusField × Nat :=
  let fe := (chan d n).fe
  match fe.txFrame with
  | some f => bitAfter (bitCycles f fe.nbtUse fe.dbtUse) fe.txBits (sinceSof d n) 0
  | none => (.sof, 0)

/-- The T ticks from the SOF for which the bits of a frame received can only be of the nominal bit timing: without end with fd_en = 0 in use,
else to the earliest moment at which bit 16, the first that can be BRS, ends (R86, R88). -/
def nominalFor (fe : FrameEngine) : Nat :=
  let nb := nominalBit fe.nbtUse
  let n2 := (fld fe.nbtUse 0 8 + 1) * (fld fe.nbtUse 16 7 + 1)
  let d2 := (fld fe.dbtUse 0 5 + 1) * (fld fe.dbtUse 10 4 + 1)
  if fe.cfgUse.getLsbD 0 then 2 * (16 * nb + min nb (nb - n2 + d2)) else 2 ^ 64

/-- The field and bit index of the bit in progress of a frame received (R104): placed by the nominal bit timing where that is the frame's, up to
the bit that can switch the rate, or in every frame while fd_en = 0 is in use; the field is known up to the base identifier. Where what no
command has told of the frame decides, a free value (log 12). -/
def receivedBit (d : Device) (n : ChanNo) : (BusField × Nat) × Device :=
  let fe := (chan d n).fe
  let i := sinceSof d n / (2 * nominalBit fe.nbtUse)
  if i = 0 then ((.sof, 0), d)
  else if i < 12 then ((.baseId, i), d)
  else
    let (k, d) := takeFree d
    ((Config.bitField k, if sinceSof d n < nominalFor fe then min i 4095 else (Config.bitIndex k).toNat), d)

/-- Driving mode ends during the channel's own frame (R102). -/
def driveLost (d : Device) (n : ChanNo) : Device :=
  let (fc, ix) := ownBit d n
  let d := releaseFrame d n
  let d := onFe d n (fun f => { f with evt := setBit f.evt 6, txFrame := none, txBits := [] })
  let d := errorEntry d n 9 fc true ix (busStamp d n) d.tim.gen
  let d := attemptFails d n 6
  onFe d n (fun f => { f with activity := .receiving, monitored := true, asTx := false })

/-- The receiver goes off during a frame the channel receives (R104). -/
def rxLost (d : Device) (n : ChanNo) : Device :=
  let ((fc, ix), d) := receivedBit d n
  let d := releaseFrame d n
  let d := onFe d n (fun f => { f with evt := setBit f.evt 7 })
  errorEntry d n 10 fc false ix (busStamp d n) d.tim.gen

/-- A command that stands at a bus idle finds it: nothing is on the bus, and where a frame has ended valid its intermission is over (log 139). -/
def idleBus (f : FrameEngine) : Bool := decide (f.activity = .none) && (f.busIdle || f.intermission)

/-- What a change of mode from m0 brings (R83, R102 to R104, R160). -/
def afterMode (d : Device) (n : ChanNo) (m0 : Mode) : Device :=
  let m1 := modeOf d n
  let tx := decide ((chan d n).fe.activity = .transmitting)
  let d := if decide (m0 = .driving) && decide (m1 ≠ .driving) && tx then driveLost d n else d
  let d := if decide (m1 = .idle) && decide (m0 ≠ .idle) then
      let d := if decide ((chan d n).fe.activity = .receiving) && !tx then rxLost d n else d
      followedEnds (onFe d n (fun f => { f with
        activity := .none, integrated := false, busIdle := false, intermission := false, monitored := false })) n none
    else d
  let d := if decide (m1 = .driving) && decide (m0 ≠ .driving)
      && (decide ((chan d n).fe.activity ≠ .none) || !(chan d n).fe.busIdle)
    then onFe d n (fun f => { f with monitored := true }) else d
  if decide (m0 = .driving) && decide (m1 ≠ .driving) then ballotEnd d n 6 else d

/-- What the lattice tells a sentinel: without VAON the sentinel is held in reset and takes nothing (R395, R444, R447). -/
def toSentinel (d : Device) (f : Device → Device) : Device := if d.glb.vaonUp then f d else d

/-- The line die's token of a channel set or cleared (R50); it stays clear without VAON (R395, R444). -/
def setToken (d : Device) (n : ChanNo) (v : Bool) : Device :=
  let m0 := modeOf d n
  toSentinel d (fun d => afterMode (onLine d n (fun l => { l with token := v })) n m0)

/-! ### Line-state transitions (R42, R45, R46, R48) -/

/-- The code of a line state (R42). -/
def lineCode (s : LineSt) : Nat :=
  match s with
  | .off => 0
  | .sleep => 1
  | .normal => 2
  | .listen => 3
  | .standby => 4

/-- A LINE_STATE entry (R132). -/
def lineEntry (d : Device) (n : ChanNo) (old new : LineSt) (cause : Nat) : Device :=
  busState d n d.tim.raw d.tim.gen 1 (pack [(0, lineCode old), (4, lineCode new), (8, cause)])

/-- A transition of the line state: line_req afterwards, the driver off and RXD recessive until it completes, the mode's
change, the end of a ballot as the channel leaves NORMAL (R160; log 100), arming at an entry into SLEEP and disarming elsewhere, and a
LINE_STATE entry where the sentinel acts without a line_req write (cause not 0) or STANDBY is entered (R45, R46, R48). A calibration
runs in OFF alone (R68; log 101); confirm_late is for a t_CONFIRM expiry alone (R54). -/
def lineMove (d : Device) (n : ChanNo) (new req : LineSt) (cause : Nat) : Device :=
  let old := (chan d n).line.state
  let m0 := modeOf d n
  let own := ballotHere d n
  let awake := decide (new ≠ .off) && decide (new ≠ .sleep)
  let d := onLine d n (fun l => { l with
    state := new, req := req, moving := true, rxReady := false, bias := awake, expired := decide (cause = 4)
    calBusy := l.calBusy && decide (new = .off) })
  let d := afterMode d n m0
  let d := if decide (new = .normal) || !own then d else ballotEnd d n 6
  let d := if new = .sleep then (if (chan d n).wake.armed then d else armOp d n false)
    else disarm (onWake d n (fun w => { w with
      decoding := false, leftAt := if old = .sleep ∧ cause = 0 then some d.tim.raw else w.leftAt })) n
  if cause = 0 then d else lineEntry d n old new cause

/-- The line_req part of a write of CHn_LINE_CTRL (R43 to R45, R50, R54, R160). -/
def lineRequest (d : Device) (n : ChanNo) (req : LineSt) : Device :=
  let c := chan d n
  let refused := (decide (c.fe.role = .off) && decide (req ≠ .off)) || (decide (c.fe.role = .listen) && decide (req = .normal))
  if refused then onLine d n (fun l => { l with evt := setBit l.evt 6 })
  else
    let late := c.line.expired && decide (c.line.state = .sleep) && (decide (req = .normal) || decide (req = .listen))
    let d := onLine d n (fun l => { l with
      req := req, reqWritten := true, evt := if late then setBit l.evt 2 else l.evt })
    let d := if decide (req = c.line.state) then d
      else
        let d := toSentinel d (fun d => lineMove d n req req 0)
        if (chan d n).slp.phase = .idle then d else ballotEnd d n 6
    if decide (req = .normal) && !paired d && mayDrive c.fe.role && !(chan d n).line.token then setToken d n true else d

/-- The term_en part (R58, R59), which the sentinel takes (R60, R447). -/
def termWrite (d : Device) (n : ChanNo) (v : Bool) : Device :=
  toSentinel d fun d =>
  if v && decide ((chan d n).fe.role ≠ .head) then onLine d n (fun l => { l with evt := setBit l.evt 6 })
  else onLine d n (fun l => { l with termEn := v })

/-- The local_wake_en part (R64). -/
def localWakeWrite (d : Device) (n : ChanNo) (v : Bool) : Device :=
  toSentinel d (fun d => onLine d n (fun l => { l with localWake := v }))

/-! ### Wakes (R47, R63, R181, R184, R185, R406) -/

/-- INH is high while a sentinel requests it (R63). -/
def inhHigh (d : Device) : Bool := d.sent.toList.any (fun s => s.inhReq)

/-- A wake is recognised: the sentinel requests INH, and a standby request in force is cleared, with stby_aborted while
INH is still high (R63, R406). -/
def wakeSentinel (d : Device) (k : DieNo) : Device :=
  let high := inhHigh d
  let d := onSent d k (fun s => { s with inhReq := true })
  if d.glb.stby then { d with glb := { d.glb with stby := false, stbyAborted := d.glb.stbyAborted || high } } else d

/-- With the standby request in force and every channel of its die in SLEEP or OFF, a sentinel withdraws INH (R63); a channel counts from
the start of its transition, as CHn_LINE_STAT shows it (log 102). -/
def inhCheck (d : Device) (k : DieNo) : Device :=
  if d.glb.stby && (dieChans k).all (fun n => decide ((chan d n).line.state = .sleep) || decide ((chan d n).line.state = .off))
  then onSent d k (fun s => { s with inhReq := false }) else d

/-- The sentinel's offline record of a wake, while the journal cannot take it (R126, R185). -/
def offlineWake (d : Device) (n : ChanNo) (source : Nat) (tick : Nat) : Device :=
  if journalOn d n then d
  else onWake d n (fun w => { w with
    offCount := if w.offCount = 255 then w.offCount else w.offCount + 1
    offSat := w.offSat || decide (w.offCount = 255)
    offSource := BitVec.ofNat 3 source, offTick := tick })

/-- The channel has left SLEEP, by a line_req or by another wake, within a sentinel tick of 1 ms, so that a wake now comes after that in its
tick (R47; log 138). -/
def lateWake (d : Device) (n : ChanNo) (tick : Nat) : Bool :=
  let w := (chan d n).wake
  !w.armed && decide ((chan d n).line.state ≠ .sleep)
    && (decide (w.wokeTick = some tick) || w.leftAt.any (fun r => decide ((d.tim.raw - r).toNat < msTicks)))

/-- The recogniser sees the wake: it is armed, or was in this sentinel tick. -/
def mayWake (d : Device) (n : ChanNo) (tick : Nat) : Bool := (chan d n).wake.armed || lateWake d n tick

/-- A wake of a source (R184) with its LINE_STATE cause: the WAKE entry, then its LINE_STATE entry; from SLEEP the channel
goes to STANDBY, during commit or descent the ballot ends ABORTED_BY_WAKE (R45, R160, R165, R166). One that comes in its tick after what took
the channel out of SLEEP is discarded, but journalled with equal states (R47, R132); it is not one to be confirmed (log 138). -/
def wakeChannel (d : Device) (n : ChanNo) (source cause tick : Nat) (payload : List Word) : Device :=
  let late := lateWake d n tick
  let d := wakeSentinel d (dieOf n)
  let d := onWake d n (fun w => { w with
    lastSource := BitVec.ofNat 3 source, evt := setBit w.evt 2
    confirming := if source = 1 ∧ late = false then w.confirming ++ [tick] else w.confirming })
  let d := offlineWake d n source tick
  let d := wakeSleep d n (pack [(0, 4), (8, source)]) payload
  let st := (chan d n).line.state
  if st = .sleep then onWake (lineMove d n .standby .sleep cause) n (fun w => { w with wokeTick := some tick })
  else
    let d := lineEntry d n st st cause
    if late then d else ballotEnd d n 3

end Sys2Proof.Machine
end

