-- ==== Sys2Proof/Machine/PairOps.lean ====
section
/-! DEFINITION. The shared operations of the pair unit: epochs, ROUTE_UPDATE, events, tokens given and taken, promotion
(11_pair.md). -/

namespace Sys2Proof.Machine

/-! ### Epochs and routing (R239, R302) -/

/-- The pair epoch and this station's epoch advance; the active tells the partner (R284, R302). -/
def advanceEpochs (d : Device) : Device :=
  { d with pair := { d.pair with epoch := d.pair.epoch + 1 }, ring := { d.ring with epoch := d.ring.epoch + 1 } }

/-- The partner's station epoch advances with a castling that both take part in (R239, R302). -/
def peerAdvance (d : Device) : Device :=
  match d.pair.peer with
  | some m => { d with pair := { d.pair with peer := some { m with stEpoch := m.stEpoch + 1 } } }
  | none => onMap d d.pair.partner (fun e => { e with epoch := e.epoch + 1 })

/-- Tell the partner the epochs and the castled map (R284). -/
def mirrorEpoch (d : Device) : Device :=
  mirrorActive d qHouse (.epoch d.pair.epoch d.ring.epoch d.pair.castled)

/-- The active and the shadow station of the pair as this member sees them. -/
def pairStations (d : Device) : BitVec 10 × BitVec 10 :=
  if d.pair.role = .shadow then (d.pair.partner, d.ring.station) else (d.ring.station, d.pair.partner)

/-- What a ROUTE_UPDATE writes into RNG_PAIRp and RNG_MAPs (R302). -/
def routeWrite (d : Device) (p : Nat) (act sh : BitVec 10) (pe ae se : BitVec 8) (castled : BitVec 64) : Device :=
  let e : PairEnt := { active := act, shadow := sh, epoch := pe, valid := true, castled := castled }
  let d := { d with ring := { d.ring with pairs := tabSet {} d.ring.pairs p e } }
  let d := onMap d act (fun m => { m with epoch := ae })
  onMap d sh (fun m => { m with epoch := se })

/-- ROUTE_UPDATE on both rings with a cause, the partner's station epoch as given (R302). -/
def sendRoute (d : Device) (cause : Nat) (peerEpoch : BitVec 8) : Device :=
  let (act, sh) := pairStations d
  let (ae, se) := if d.pair.role = .shadow then (peerEpoch, d.ring.epoch) else (d.ring.epoch, peerEpoch)
  let d := routeWrite d d.pair.number.toNat act sh d.pair.epoch ae se d.pair.castled
  sendBroadcast d qHouse 11 (leBytes 2 1 ++ leBytes 2 d.pair.number.toNat ++ leBytes 2 act.toNat ++ leBytes 2 sh.toNat
    ++ leBytes 1 d.pair.epoch.toNat ++ leBytes 1 ae.toNat ++ leBytes 1 se.toNat ++ leBytes 1 cause ++ leBytes 4 0
    ++ leBytes 8 d.pair.castled.toNat)

/-- The partner's station epoch as last heard, by a HEARTBEAT or by its TOPO (R281, R234). -/
def peerEpoch (d : Device) : BitVec 8 :=
  match d.pair.peer with
  | some m => m.stEpoch
  | none => (mapOf d d.pair.partner).epoch

/-- The unit of an event about the whole pair. -/
def wholePair : Nat := 0xFFFF

/-- A CASTLING event (R304). out_of_step is of the trigger; a castling by command, by request or on bus-off, kinds 1 to 3, starts in
IN_STEP alone (R291, R299, R300). -/
def castlingEvent (d : Device) (unit kind : Nat) (holdsNow : Bool) : Device :=
  let out := d.pair.outOfStep && !(decide (1 ≤ kind) && decide (kind ≤ 3))
  eventNow d 2 unit (kind + 8 * out.toNat + 16 * holdsNow.toNat + 256 * d.pair.epoch.toNat)

/-- A SPLIT_SUSPECT event (R304). -/
def splitEvent (d : Device) : Device :=
  eventNow d 8 wholePair ((!d.ring.mirror.blockLock).toNat + 2 * (decide (d.pair.role = .active)).toNat
    + 256 * d.pair.epoch.toNat)

/-! ### Holders and tokens (R278 to R280) -/

/-- The channels of a map. -/
def chansOf (m : BitVec 64) : List ChanNo := (List.finRange 64).filter (fun n => m.getLsbD n.val)

/-- The channels whose role is HEAD or MEMBER. -/
def driveChans (d : Device) : BitVec 64 :=
  (List.finRange 64).foldl (fun m n => if mayDrive (chan d n).fe.role then setBit m n.val else m) 0

/-- This member takes a channel: it holds it, sets its token, and, where the holder has changed, LISTEN becomes NORMAL (R278,
R279). -/
def takeChan (d : Device) (n : ChanNo) : Device :=
  let had := holdsChan d n
  let d := { d with pair := { d.pair with held := setBit d.pair.held n.val } }
  let d := setToken d n true
  if !had && decide ((chan d n).line.state = .listen) then lineRequest d n .normal else d

/-- This member gives a channel up: the partner is told the completions that only wait for their TX_ECHO entries (R284), the token is
cleared, this member is no longer the holder, and NORMAL becomes LISTEN (R278 to R280). -/
def giveChan (d : Device) (n : ChanNo) : Device :=
  let d := setToken (settleClosing d n (fun _ => true)) n false
  let d := { d with pair := { d.pair with held := clrBit d.pair.held n.val, giving := clrBit d.pair.giving n.val } }
  if (chan d n).line.state = .normal then lineRequest d n .listen else d

/-- The castled map after channel n has moved to or from this member (R278). -/
def recordMove (d : Device) (n : ChanNo) (here : Bool) : Device :=
  let atShadow := if d.pair.role = .shadow then here else !here
  { d with pair := { d.pair with castled := putBit d.pair.castled n.val atShadow } }

/-! ### The witness (R286) -/

/-- The non-holder completes a READY or ON_BUS entry of its copy on its own witness, the lowest index (R286). -/
def witness (d : Device) (n : ChanNo) (f : Frame) : Device :=
  if shadowFor d n then
    match (lqListed d n).find? (fun i =>
      (decide ((lqEnt d n i).st = .ready) || decide ((lqEnt d n i).st = .onBus)) && sameFrame d n i f) with
    | some i => lqFree d n i
    | none => d
  else d

/-! ### Mirror cells that wait -/

/-- A HEARTBEAT, which waits for nothing. -/
def isBeat (m : MirMsg) : Bool :=
  match m with
  | .heartbeat _ => true
  | _ => false

/-- The engine's CONTEXT cell has left, or is dropped (R340). -/
def contextSent (d : Device) (m : MirMsg) : Device :=
  match m with
  | .context k _ _ => onEng d k (fun e => { e with ctxCell := false })
  | _ => d

/-- The mirror cells that wait are dropped but for a HEARTBEAT: they would come too late, and a resync sends every item anew (R283, R294). -/
def dropMirror (d : Device) : Device :=
  let d := d.pair.mirOut.foldl (fun d x => contextSent d x.2) d
  { d with pair := { d.pair with mirOut := d.pair.mirOut.filter (fun x => isBeat x.2) } }

/-- Mirror cells that wait, less the TOKEN cells: what a member that goes on alone has taken back it does not give (R280, R293, R296). -/
def tokenless (l : List (ReqNo × MirMsg)) : List (ReqNo × MirMsg) :=
  l.filter (fun x => match x.2 with
    | .token _ _ => false
    | _ => true)

/-- The channels whose moving TOKEN cell still waits (R280, R299, R300). -/
def unsentTokens (l : List (ReqNo × MirMsg)) : BitVec 64 :=
  l.foldl (fun m x => match x.2 with
    | .token c .channel => m ||| c
    | .token c .busOff => m ||| c
    | _ => m) 0

/-! ### Promotion (R296) -/

/-- Step 3: a MIRROR context, enabled on an engine in RUN, is made ready at its entry address, its registers as last mirrored; any other is OFF
and stays so (R296, R306, R340). -/
def readyMirror (e : Engine) : Engine :=
  if e.st ≠ .run then e
  else { e with ctx := Vector.ofFn (fun i : Fin 32 =>
      let c := e.ctx[i]
      if c.cfg.getLsbD 24 && e.ctxEn.getLsbD i.val
      then { c with st := .ready, pc := c.cfg.extractLsb' 0 10, cause := 0, wait := .none } else c) }

/-- Step 5: a ballot not in IDLE ends ABORTED_BY_STATE. -/
def endBallot (d : Device) (n : ChanNo) : Device := ballotEnd d n 6

/-- Promotion (R296): settle is false after a castling, where nothing is ON_BUS (R298); the partner is told the epochs and the map (R284). -/
def promote (d : Device) (settle : Bool) (cause kind : Nat) (partnerEpoch : BitVec 8) : Device :=
  let d := advanceEpochs d
  let d := { d with pair := { d.pair with
    role := .active, evt := setBit d.pair.evt 0, check := none, checkDue := false, giving := 0, castling := none, peerCastling := false
    mirOut := tokenless d.pair.mirOut } }
  let d := if settle then forChans d (List.finRange 64) settleOnBus else d
  let d := { d with eng := d.eng.map readyMirror }
  let d := forChans d (List.finRange 64) endBallot
  let d := sendRoute d cause partnerEpoch
  let d := forChans d (chansOf (driveChans d)) takeChan
  castlingEvent (mirrorEpoch { d with pair := { d.pair with castled := 0 } }) wholePair kind true

/-- The member becomes the shadow after a castling (R298); the results of its own lock operations are gone (R289). -/
def demote (d : Device) : Device :=
  { d with
    pair := { d.pair with role := .shadow, evt := setBit d.pair.evt 1, castled := 0, castling := none }
    locks := d.locks.foldl (fun t e => tabSet {} t e.1 { e.2 with result := 0 }) [] }

/-- The fence (R279, R293): every token is cleared at once, without waiting for the channels to be idle, and the channels held are
given up; pair_state reads ISOLATED as in the first row of R290 (log 24). -/
def fence (d : Device) : Device :=
  let d := forChans (dropMirror d) (chansOf d.pair.held) giveChan
  let d := forChans d (List.finRange 64) (fun d n => setToken d n false)
  { d with pair := { d.pair with
    held := 0, giving := 0, castling := none, peerCastling := false, fenced := true, st := .isolated, evt := setBit (setBit d.pair.evt 7) 8 } }

/-! ### Pair states and the ring check's failure (R290 to R293, R303) -/

/-- The sticky bit of a pair state entered (R303). -/
def stateEvt (st : PairSt) (e : BitVec 9) : BitVec 9 :=
  match st with
  | .inStep => e
  | .resync => e
  | .splitSuspect => setBit e 4
  | .partnerLost => setBit e 5
  | .mismatch => setBit e 6
  | .isolated => setBit e 8

/-- A pair state taken, with its sticky bit; a resync begins afresh and is counted (R283, R303). A castling asked of the
partner, or told of by it, is forgotten (log 106). -/
def enterState (d : Device) (st : PairSt) : Device :=
  let p := d.pair
  { d with pair := { p with
    st := st, evt := stateEvt st p.evt, asked := false, peerCastling := false
    resyncNo := if st = .resync then p.resyncNo + 1 else p.resyncNo, resyncFor := if st = .resync then none else p.resyncFor
    resyncCnt := if st = .resync then cntUp p.resyncCnt else p.resyncCnt
    resyncSent := p.resyncSent && decide (st ≠ .resync), resyncGot := p.resyncGot && decide (st ≠ .resync) } }

/-- The active holds every HEAD and MEMBER channel but those castled; before start-up step 7 their tokens wait (R278, R400). -/
def holdAll (d : Device) : Device :=
  let m := driveChans d &&& ~~~ d.pair.castled
  if d.glb.inService then forChans d (chansOf m) takeChan else { d with pair := { d.pair with held := m } }

/-- A castling under way is abandoned: the TOKEN cells that wait are dropped with the other mirror cells, and this member holds again what
they or the castling of the whole pair had given up (R278, R280, R294; log 155). A conflict lost stays lost (R290). -/
def abandon (d : Device) : Device :=
  let m := unsentTokens d.pair.mirOut
  let whole := decide (d.pair.castling = some .whole)
  let plain := decide (d.pair.castling = some .plain)
  let d := dropMirror d
  let d := { d with pair := { d.pair with
    giving := if plain then d.pair.giving else 0, castling := if plain then d.pair.castling else none, asked := false, peerCastling := false } }
  let d := forChans d (chansOf m) (fun d n => recordMove (takeChan d n) n true)
  if whole then holdAll d else d

/-- The active's check went unanswered: PARTNER_LOST, and the active continues alone, with the channels that an unfinished
castling had given up (R293; log 28). -/
def loseP (d : Device) : Device :=
  let d := abandon d
  let d := enterState { d with pair := { d.pair with check := none, checkDue := false, giving := 0, castling := none } } .partnerLost
  castlingEvent (holdAll d) wholePair 4 true

/-- The ring check failed (R292, R293): the shadow promotes, the active has lost its partner. In MISMATCH the shadow never
promotes (R290). -/
def checkFailed (d : Device) : Device :=
  let d := { d with pair := { d.pair with check := none, checkDue := false } }
  if d.pair.role = .active then loseP d
  else if d.pair.role = .shadow ∧ d.pair.st ≠ .mismatch then
    enterState (promote (dropMirror d) true 1 0 (peerEpoch d)) .partnerLost
  else d

/-! ### Giving up (R280, R290, R298, R299) -/

/-- The last channel of a whole castling or of a lost conflict has been given up (R290, R298): the TOKEN cell of all channels follows the last
mirror items; a member that stays behind in SPLIT_SUSPECT goes on checking there (R290, R294). -/
def gaveAll (d : Device) : Device :=
  if d.pair.giving ≠ 0 then d
  else match d.pair.castling with
  | some .whole => mirrorQueue d qHouse (.token (BitVec.allOnes 64) .whole)
  | some .plain =>
    let d := { d with pair := { d.pair with role := .shadow, castling := none, castled := 0 } }
    if d.pair.st = .mismatch ∨ d.pair.st = .splitSuspect then d else enterState d .resync
  | _ => d

/-- A channel that was to be given up has gone by bus-off: what was given up for goes on without it (R280, R299). -/
def goneOnBusOff (d : Device) (was : Bool) : Device :=
  if !was then d
  else if d.pair.castling = some .channel
  then mirrorQueue { d with pair := { d.pair with castling := none } } qHouse (.token 0 .over)
  else gaveAll d

/-- Channel castling on bus-off (R299), at the member that holds the channel: the token is cleared, fc_local set, the
TOKEN cell sent, the epochs advanced and the event sent, also while the channel is being given up (log 107). -/
def castleOnBusOff (d : Device) (n : ChanNo) : Device :=
  if (decide (d.pair.role = .active) || decide (d.pair.role = .shadow)) && holdsChan d n && d.pair.chCastleEn.getLsbD n.val
      && decide (d.pair.st = .inStep) && !d.pair.peerLocal.getLsbD n.val then
    let was := d.pair.giving.getLsbD n.val
    let d := giveChan d n
    let d := { d with pair := { d.pair with fcLocal := setBit d.pair.fcLocal n.val, evt := setBit d.pair.evt 2 } }
    let d := recordMove d n false
    let d := mirrorQueue d qHouse (.token (setBit 0 n.val) .busOff)
    let d := mirrorEpoch (peerAdvance (advanceEpochs d))
    goneOnBusOff (castlingEvent d n.val 2 false) was
  else d

end Sys2Proof.Machine
end

