-- ==== Sys2Proof/Machine/RingOps.lean ====
section
/-! DEFINITION. The shared operations of the ring unit: the island reference, forwarding, lanes, joining, topology, wrapping,
role epochs and fabric locks (02_lattice_timing.md R30, 09_ring.md). -/

namespace Sys2Proof.Machine

/-! ### The island PLL's reference (R30, R31) -/

/-- This station is the time master, the clock root (R204); without a number it is none (R403). -/
def isMaster (d : Device) : Bool := d.tim.master && d.ring.numbered && decide (d.tim.masterSt = d.ring.station)

/-- The first row of R30 whose condition holds: 0 REFCLK, 1 WRX, 2 ERX, 3 HOLDOVER, the last also while there is no time master and, in place of
ERX, while the topology is being learnt after a failure (R31, R212). A wrapped side leads nowhere. -/
def refChoice (d : Device) : BitVec 2 :=
  let root := mapOf d d.tim.masterSt
  if !d.lat.trained || isMaster d then 0
  else if d.tim.masterLost then 3
  else if d.ring.west.blockLock && !d.ring.wrapWest && root.ccwOk then 1
  else if d.lat.learning then 3
  else if d.ring.east.blockLock && !d.ring.wrapEast && root.cwOk then 2
  else 3

/-- The reference is selected again; a change sets ref_switched (R31). -/
def refSelect (d : Device) : Device :=
  let r := refChoice d
  if r = d.lat.refSel then d else { d with lat := { d.lat with refSel := r, refSwitched := true } }

/-! ### Lanes -/

/-- A cell leaves by a ring side's lane, its CRC computed over the cell as sent (R220, R224). -/
def putLane (d : Device) (s : Side) (c : RCell) : Device :=
  let c := { c with crc := cellCrc c }
  match s with
  | .east => { d with ring := { d.ring with laneEast := some c } }
  | .west => { d with ring := { d.ring with laneWest := some c } }

/-- A span-local cell leaves by the mirror lane. -/
def putMirror (d : Device) (c : RCell) : Device := { d with ring := { d.ring with laneMirror := some { c with crc := cellCrc c } } }

/-- A cell that arrived at a side goes on: out of the other side, or, where that is wrapped, back out of the same side on
the other ring with wrap_odd toggled and hop 0; a broadcast other than BEACON is stripped there (R223, R225, R232). -/
def forward (d : Device) (at_ : Side) (c : RCell) : Device :=
  if d.ring.join = .off then d
  else if wrapped d (otherSide at_) then
    if c.bcast then d else putLane d at_ { c with wrapOdd := !c.wrapOdd, hop := 0 }
  else putLane d (otherSide at_) c

/-- A cell with its hop count advanced on arrival (R224). -/
def hopped (c : RCell) : RCell := { c with hop := c.hop + 1 }

/-- The checks of every arrival (R29, R220, R224): without block lock the receive island does not run; a cell that fails its CRC is
counted, one whose hop would pass 1 023 sets hop_exceeded; either is gone. A cell other than SPAN_DOWN breaks a run of them (R231). -/
def arrive (d : Device) (at_ : Port) (c : RCell) : Option RCell × Device :=
  if !(port d at_).blockLock then (none, d) else
  let d := onPort d at_ (fun p => { p with spanDowns := 0, spanDownRx := false })
  if c.crc ≠ cellCrc c then (none, onPort d at_ (fun p => { p with crcErr := cntUp p.crcErr }))
  else if c.hop = 1023 then (none, { d with ring := { d.ring with err := setBit d.ring.err 1 } })
  else (some (hopped c), d)

/-- A ring lane has block lock, so that a cell can have come (R29). -/
def laneRuns (d : Device) : Bool := d.ring.east.blockLock || d.ring.west.blockLock

/-- A span-local cell joins those that wait for a side's own lane, wrapped or not (R225, R271). -/
def queueSide (d : Device) (q : ReqNo) (s : Side) (c : RCell) : Device :=
  match s with
  | .east => { d with ring := { d.ring with outEast := d.ring.outEast ++ [(q, c)] } }
  | .west => { d with ring := { d.ring with outWest := d.ring.outWest ++ [(q, c)] } }

/-! ### Requests of this station's own (R235, R238, R244) -/

/-- Where a request to a station or pair address goes: the station to route to, the epoch it carries, its dest field; none for
a pair that is not known (R238, R239). -/
def addressed (d : Device) (pairSpace : Bool) (num off : Nat) : Option (BitVec 10 × BitVec 8 × BitVec 10) :=
  if pairSpace then
    let e := pairOf d (num % 512)
    if e.valid then some (pairHolder d (num % 512) off, e.epoch, BitVec.ofNat 10 (num % 512)) else none
  else some (BitVec.ofNat 10 num, (mapOf d (BitVec.ofNat 10 num)).epoch, BitVec.ofNat 10 num)

/-- A request leaves under one of the 16 tags and answers its seq; none where it has no route (NO_ROUTE) or no tag is free, and
nothing is sent then (R235, R241, R244). -/
def sendRequest (d : Device) (why : ReqWhy) (pairSpace : Bool) (num off : Nat) (ctype : BitVec 6) (payload : List Byte)
    (got : List Word) : Option (BitVec 16) × Device :=
  match addressed d pairSpace num off with
  | none => (none, d)
  | some (st, ep, dest) =>
    match routeTo d st with
    | none => (none, d)
    | some s =>
      if 16 ≤ d.ring.reqs.length then (none, d)
      else
        let (c, d) := newCell d ctype dest ep payload
        let c := { c with pair := pairSpace }
        let d := queueOut d qHouse s c
        let r : OutReq := { seq := c.seq, cell := c, due := rawAdd d.tim.raw (d.ring.tmo.toNat * msTicks), why := why, got := got, parts := [] }
        (some c.seq, { d with ring := { d.ring with reqs := d.ring.reqs ++ [r] } })

/-- The payload of an RD_REQ (R240). -/
def readBody (off words : Nat) : List Byte := leBytes 4 off ++ leBytes 1 (words - 1)

/-- The offset of PAIR_STAT (R434). -/
def pairStatOffset : Nat := 0x700004

/-- A one-word read of a partner register. -/
def readPartner (d : Device) (why : ReqWhy) (off : Nat) (got : List Word) : Option (BitVec 16) × Device :=
  sendRequest d why false d.pair.partner.toNat off 1 (readBody off 1) got

/-! ### TOPO, OWNER_RESET, joining (R229, R230, R234) -/

/-- Payload of an OWNER_RESET or TOPO up to the join token, which is written as the cell leaves (R229; layout log 20). -/
def tokenBody (rest : List Byte) : List Byte := leBytes 2 1 ++ leBytes 2 0 ++ leBytes 4 0 ++ rest

/-- The TOPO payload after its token: flags, station epoch, and the pair record (R234, R238; layout log 20). -/
def topoBody (d : Device) : List Byte :=
  let flags := (decide (d.ring.east.st ≠ .up)).toNat + 2 * (decide (d.ring.west.st ≠ .up)).toNat
    + 8 * (decide (d.ring.join = .collision)).toNat
  let (act, sh) := pairStations d
  let formed := decide (d.pair.role = .active) || decide (d.pair.role = .shadow)
  leBytes 1 flags ++ leBytes 1 d.ring.epoch.toNat ++ leBytes 2 (if formed then d.pair.number.toNat else 0xFFFF)
    ++ leBytes 2 act.toNat ++ leBytes 2 sh.toNat ++ leBytes 1 d.pair.epoch.toNat ++ leBytes 7 0 ++ leBytes 8 d.pair.castled.toNat

/-- Send TOPO on both rings (R234). -/
def sendTopo (d : Device) : Device := sendBroadcast d qHouse 10 (tokenBody (topoBody d))

/-- Send OWNER_RESET on both rings (R229). -/
def sendOwnerReset (d : Device) : Device := sendBroadcast d qHouse 9 (tokenBody [])

/-- The tag word at index i. -/
def tagWord (d : Device) (i : Nat) : Word := tabGet (0 : Word) d.tag i

/-- The number a station goes by: the one in use, taken from the tag area at step 3 of the start-up and at each entry to JOINING
(R229, R410, R428; log 127). -/
def ownNumber (d : Device) : BitVec 10 := d.ring.station

/-- The tag area holds a valid station number (R403, R408). -/
def stationValid (d : Device) : Bool := decide (fld (tagWord d 0) 0 16 ≤ 1023)

/-- JOINING is entered, with the number of the tag area; without a valid one the station stays in TRAINING (R229, R403). -/
def enterJoining (d : Device) : Device :=
  if stationValid d then
    let d := { d with glb := { d.glb with noStation := false } }
    let d := { d with ring := { d.ring with
      join := .joining, joinRaw := d.tim.raw, station := BitVec.ofNat 10 (fld (tagWord d 0) 0 16), numbered := true } }
    sendOwnerReset d
  else { d with glb := { d.glb with noStation := true } }

/-- A ring port's training is complete: UP, SPAN_DOWN no longer sent, and the first port UP enters JOINING (R227, R229, R236). -/
def portUp (d : Device) (s : Side) : Device :=
  let d := onPort d (sidePort s) (fun p => { p with
    st := .up, unwraps := 0, spanDowns := 0, spanDownRx := false, spanDownTx := false })
  let d := refSelect { d with lat := { d.lat with trained := true } }
  if d.ring.join = .training then enterJoining d else d

/-- A port starts its training afresh (R227); peer delay is not valid until the next exchange (R209), which need not wait, and the mirror lane's
raw difference is measured anew (R213, R434). -/
def startTraining (d : Device) (p : Port) : Device :=
  let d := onPort d p (fun q => { q with
    st := .training, phiDone := false, trains := 0, unwraps := 0, spanDowns := 0, nbrValid := false, blockLock := false
    txDisable := false })
  let d := { d with
    tim := { d.tim with
      pdEastOk := d.tim.pdEastOk && decide (p ≠ .east), pdWestOk := d.tim.pdWestOk && decide (p ≠ .west)
      pdAt := d.tim.pdAt.set (portIdx p) none }
    pair := { d.pair with rawDone := d.pair.rawDone && decide (p ≠ .mirror) } }
  refSelect d

/-- The station enters COLLISION (R230). -/
def enterCollision (d : Device) : Device :=
  eventNow { d with ring := { d.ring with join := .collision, joinRaw := d.tim.raw } } 10 wholePair 0

/-- A cell of the station's own number is compared by its join token: one of neither of its last two puts the station in
COLLISION (R229, R230). -/
def tokenCheck (d : Device) (c : RCell) : Device :=
  if d.ring.tokens.contains (BitVec.ofNat 32 (leAt c.payload 4 4)) ∨ d.ring.join = .off ∨ d.ring.join = .training
      ∨ d.ring.join = .collision then d
  else enterCollision d

/-- The stations of the map: every listed entry, and this station. -/
def mapCount (d : Device) : Nat := (d.ring.maps.filter (fun e => e.2.cwOk || e.2.ccwOk)).length + 1

/-- The hop counts that a TOPO's arrival gives; on a whole ring a direction that no TOPO has measured is N less the measured, N with the
station itself even when it is new to the map and as it stands now (R234). While the map is too small for that, it is not reachable. -/
def topoHops (d : Device) (at_ : Side) (c : RCell) (m : MapEnt) : MapEnt :=
  let n := mapCount d + (!(m.cwOk || m.ccwOk)).toNat
  let rest := BitVec.ofNat 10 (n - c.hop.toNat)
  let fits := decide (c.hop.toNat < n)
  let whole := !d.ring.wrapEast && !d.ring.wrapWest && d.ring.maps.all (fun e => !e.2.eastDown && !e.2.westDown)
  match at_ with
  | .west =>
    let m := { m with ccwHops := c.hop, ccwOk := true, ccwSeen := true }
    if whole && !m.cwSeen then { m with cwHops := if fits then rest else m.cwHops, cwOk := fits } else m
  | .east =>
    let m := { m with cwHops := c.hop, cwOk := true, cwSeen := true }
    if whole && !m.ccwSeen then { m with ccwHops := if fits then rest else m.ccwHops, ccwOk := fits } else m

/-- A TOPO of station s that reports a side DOWN: on each ring the stations beyond the break are not reachable, as the hop counts held tell; a ring
on which none is held for s tells nothing (R234). -/
def markBeyond (s : MapEnt) (m : MapEnt) : MapEnt :=
  let seen := fun (m : MapEnt) => { m with cwSeen := m.cwSeen && m.cwOk, ccwSeen := m.ccwSeen && m.ccwOk }
  let m := if s.eastDown then { m with
    cwOk := m.cwOk && (!s.cwOk || decide (m.cwHops ≤ s.cwHops)), ccwOk := m.ccwOk && (!s.ccwOk || decide (m.ccwHops < s.ccwHops)) } else m
  seen (if s.westDown then { m with
    cwOk := m.cwOk && (!s.cwOk || decide (m.cwHops < s.cwHops)), ccwOk := m.ccwOk && (!s.ccwOk || decide (m.ccwHops ≤ s.ccwHops)) } else m)

/-- Every map entry changed by f, kept canonical. -/
def mapAll (d : Device) (f : MapEnt → MapEnt) : Device :=
  { d with ring := { d.ring with maps := d.ring.maps.foldl (fun t e => tabSet {} t e.1 (f e.2)) [] } }

/-- A ring check in progress is repeated once on the new map; without a route there it fails (R292). -/
def checkAgain (d : Device) : Device :=
  match d.pair.check with
  | some (q, false) =>
    let d := { d with ring := { d.ring with reqs := d.ring.reqs.filter (fun r => decide (r.seq ≠ q)) } }
    match readPartner d .ringCheck pairStatOffset [] with
    | (some q', d) => { d with pair := { d.pair with check := some (q', true) } }
    | (none, d) => checkFailed d
  | _ => d

/-- The topology after a failure is learnt (R31; log 113). -/
def topologyLearnt (d : Device) : Device := { d with lat := { d.lat with learning := false } }

/-- What a received TOPO tells (R234, R238, R210, R30, R292); the TOPO of the break's other end, which reports a side DOWN, completes the
learning after a failure (R31; log 113). -/
def learnTopo (d : Device) (at_ : Side) (c : RCell) : Device :=
  let flags := leAt c.payload 8 1
  let old := mapOf d c.src
  let new := { topoHops d at_ c old with
    eastDown := flags % 2 = 1, westDown := flags / 2 % 2 = 1, host := flags / 4 % 2 = 1, collision := flags / 8 % 2 = 1
    epoch := BitVec.ofNat 8 (leAt c.payload 9 1), fresh := d.tim.raw }
  let d := onMap d c.src (fun _ => new)
  let d := if new.eastDown || new.westDown then mapAll d (markBeyond new) else d
  let wraps := (new.eastDown && !old.eastDown) || (new.westDown && !old.westDown)
  let d := if wraps then { d with tim := { d.tim with routeChanged := true } } else d
  let p := leAt c.payload 10 2
  let e : PairEnt := { active := BitVec.ofNat 10 (leAt c.payload 12 2), shadow := BitVec.ofNat 10 (leAt c.payload 14 2)
                       epoch := BitVec.ofNat 8 (leAt c.payload 16 1), valid := true
                       castled := BitVec.ofNat 64 (leAt c.payload 24 8) }
  let d := if p < 512 then { d with ring := { d.ring with pairs := tabSet {} d.ring.pairs p e } } else d
  let d := if new.eastDown ≠ old.eastDown ∨ new.westDown ≠ old.westDown then checkAgain d else d
  let d := if new.eastDown || new.westDown then topologyLearnt d else d
  refSelect d

/-! ### Failure, wrap and unwrap (R231, R232, R236) -/

/-- TOPOLOGY event (R246). -/
def topologyEvent (d : Device) : Device :=
  eventNow d 9 wholePair ((decide (d.ring.east.st = .down)).toNat + 2 * (decide (d.ring.west.st = .down)).toNat)

/-- From now on a failed side's lane carries SPAN_DOWN in every cell time, until the port is UP again (R232, R236; log 111). -/
def sendSpanDown (d : Device) (s : Side) : Device :=
  let (c, d) := newCell d 20 0 0 []
  onPort d (sidePort s) (fun p => { p with spanDownTx := true, spanPhase := 0, spanSeq := c.seq })

/-- A T tick of a failed side's lane: after each cell time the next SPAN_DOWN cell begins, with the next seq of the station (R219, R232). -/
def spanTick (d : Device) (s : Side) : Device :=
  let p := port d (sidePort s)
  if !p.spanDownTx then d
  else
    let d := if 1024 ≤ p.spanPhase.toNat + 100 then
        let (c, d) := newCell d 20 0 0 []
        onPort d (sidePort s) (fun q => { q with spanSeq := c.seq })
      else d
    onPort d (sidePort s) (fun q => { q with spanPhase := q.spanPhase + 100 })

/-- The station wraps a side (R210, R232); the topology is to be learnt (R31). -/
def wrapSide (d : Device) (s : Side) : Device :=
  let d := match s with
    | .east => { d with ring := { d.ring with wrapEast := true } }
    | .west => { d with ring := { d.ring with wrapWest := true } }
  let d := { d with tim := { d.tim with routeChanged := true }, lat := { d.lat with learning := true } }
  topologyEvent (sendTopo (checkAgain (sendSpanDown d s)))

/-- The station unwraps a side and sends TOPO (R236). -/
def unwrapSide (d : Device) (s : Side) : Device :=
  let d := match s with
    | .east => { d with ring := { d.ring with wrapEast := false } }
    | .west => { d with ring := { d.ring with wrapWest := false } }
  refSelect (sendTopo (checkAgain (topologyLearnt d)))

/-- IN_STEP ends in RESYNC (R283), and a resync is counted (R10); a resync that runs begins anew, under a new number (log 27). A castling
that this member has only asked its partner for is forgotten (log 106). -/
def startResync (d : Device) : Device :=
  if (d.pair.st = .inStep ∨ d.pair.st = .resync) ∧ (d.pair.role = .active ∨ d.pair.role = .shadow) then
    { d with pair := { d.pair with
      st := .resync, resyncCnt := if d.pair.st = .inStep then cntUp d.pair.resyncCnt else d.pair.resyncCnt
      resyncSent := false, resyncGot := false, resyncNo := d.pair.resyncNo + 1, resyncFor := none, asked := false } }
  else d

/-- The mirror lane is no longer UP: what waits for it is dropped, a castling under way abandoned, and IN_STEP ends, or the resync that runs
begins anew (R283; log 27, log 155). -/
def mirrorDown (d : Device) : Device := startResync (abandon d)

/-- The signals a cause of link failure shows (R231, R252). -/
def causeShows (cause : LinkCause) (p : LanePort) : LanePort :=
  match cause with
  | .invalidBlocks => p
  | .lockLost => p
  | .hiBer => p
  | .rxLos => { p with rxLos := true }
  | .modAbs => { p with modAbs := true }
  | .txFault => { p with txFault := true }

/-- The side of a failed port is wrapped, while the ring is enabled; a side still wrapped whose port has been UP since fails anew (R232). The
reference is selected again (R30). -/
def wrapFailed (d : Device) (s : Side) : Device :=
  if d.ring.en && (!wrapped d s || !(port d (sidePort s)).spanDownTx) then refSelect (wrapSide d s) else d

/-- The side of a port that declares link failure (R232): a side that is wrapped already, and sends SPAN_DOWN since, sends it on, with a TOPO
and a TOPOLOGY event of this failure. -/
def failSide (d : Device) (s : Side) : Device :=
  if d.ring.en && wrapped d s && (port d (sidePort s)).spanDownTx then refSelect (topologyEvent (sendTopo d)) else wrapFailed d s

/-- A port declares link failure (R209, R231, R232, R283): DOWN, counted, its lock and peer delay gone; a ring side is wrapped, and
the mirror lane's failure ends IN_STEP. A station left without a ring port UP is in TRAINING again, so that
the next port UP enters JOINING (R229, R410; log 22). -/
def linkFail (d : Device) (p : Port) (show_ : LanePort → LanePort) : Device :=
  let d := onPort d p (fun q => { show_ q with
    st := .down, blockLock := false, phiDone := false, trains := 0, unwraps := 0, spanDowns := 0, nbrValid := false
    linkFail := cntUp q.linkFail })
  let d := { d with tim := { d.tim with
    pdEastOk := d.tim.pdEastOk && decide (p ≠ .east), pdWestOk := d.tim.pdWestOk && decide (p ≠ .west) } }
  let d := match p with
    | .east => failSide d .east
    | .west => failSide d .west
    | .mirror => mirrorDown d
  let alone := decide (d.ring.east.st ≠ .up) && decide (d.ring.west.st ≠ .up)
    && (decide (d.ring.join = .joining) || decide (d.ring.join = .joined))
  refSelect (if alone then { d with ring := { d.ring with join := .training, joinRaw := d.tim.raw } } else d)

/-! ### Role epochs (R238, R239) -/

/-- A type that is checked for its role epoch: requests and EVENT cells (R239). -/
def epochChecked (t : BitVec 6) : Bool := [1, 3, 5, 6, 8, 13].contains t.toNat

/-- A type that a response answers (R222, R240). -/
def nonPosted (t : BitVec 6) : Bool := [1, 3, 6, 13].contains t.toNat

/-- The response type of a request type. -/
def respType (t : BitVec 6) : BitVec 6 := t + 1

/-- The epoch now in force for a cell's destination (R239). -/
def epochNow (d : Device) (c : RCell) : BitVec 8 := if c.pair then d.pair.epoch else d.ring.epoch

/-- The offset a request names (R240). -/
def reqOffset (c : RCell) : Nat := leAt c.payload 0 4 % 2 ^ 30

/-- This member holds a pair-space address (R238): of a channel that may drive, the holder of the channel (R278); any other, the
active. -/
def holdsAddress (d : Device) (c : RCell) : Bool :=
  match (if c.ctype = 6 then none else chanOfOffset (reqOffset c)) with
  | some n => if mayDrive (chan d n).fe.role then holdsChan d n else decide (d.pair.role = .active)
  | none => decide (d.pair.role = .active)

/-- A refused cell goes back to its source whole (R239); its pair bit stays as it was and dest names the source. -/
def returnCell (d : Device) (q : ReqNo) (c : RCell) : Device :=
  let back := { c with ctype := c.ctype + 0x30, epoch := epochNow d c, src := d.ring.station, dest := c.src, hop := 0 }
  match routeTo d c.src with
  | some s => queueOut d q s back
  | none => d

/-- A request of this station's own is over with a status and data (R241, R244). -/
def finishReq (d : Device) (seq : BitVec 16) (status : Nat) (data : List Word) : Device :=
  { d with ring := { d.ring with
    reqs := d.ring.reqs.filter (fun r => decide (r.seq ≠ seq))
    done := some ⟨seq, BitVec.ofNat 4 status, data⟩ } }

/-! ### Fabric locks (R247 to R249, R289) -/

/-- Lock i. -/
def lockAt (d : Device) (i : Nat) : Lock := tabGet {} d.locks i

/-- Lock i written; the partner is told owner, lease end and mark (R284). -/
def lockPut (d : Device) (i : LockNo) (l : Lock) : Device :=
  let d := { d with locks := tabSet {} d.locks i.val l }
  mirrorActive d qHouse (.lock i l.owner l.held l.leaseMs l.leaseEnd l.broken)

/-- LOCK_BROKEN (R246): cause 1 owner reset, 2 lease, 3 BREAK. -/
def lockEvent (d : Device) (i : LockNo) (old : Lock) (cause : Nat) : Device :=
  let owner := if old.held then old.owner.toNat else 0
  eventNow d 6 i.val (owner + 65536 * cause + 262144 * (!old.held).toNat)

/-- A lock is broken: free, its mark set, counted, LOCK_BROKEN sent. -/
def breakLock (d : Device) (i : LockNo) (cause : Nat) : Device :=
  let old := lockAt d i.val
  let d := lockPut d i { old with owner := 0, held := false, leaseMs := 0, leaseEnd := 0, broken := true, cnt := cntUp old.cnt }
  lockEvent d i old cause

/-- This member's lock table is a copy and is not operated (R289). -/
def locksCopied (d : Device) : Bool := decide (d.pair.role = .shadow)

/-- A lease whose end has come ends before any operation placed at its edge or later (R248). -/
def leaseDue (d : Device) (i : LockNo) : Device :=
  let l := lockAt d i.val
  if l.held && reached d.tim.raw l.leaseEnd && !locksCopied d then breakLock d i 2 else d

/-- The operations of R247 by code, for a requester: the result code and the device. -/
def lockOp (d : Device) (i : LockNo) (op : Nat) (lease : BitVec 16) (who : BitVec 10) : Nat × Device :=
  let d := leaseDue d i
  let l := lockAt d i.val
  let mine := l.held && decide (l.owner = who)
  let fresh := { l with owner := who, held := true, leaseMs := lease, leaseEnd := rawAdd d.tim.raw (lease.toNat * msTicks) }
  match op with
  | 1 => if mine then (5, lockPut d i fresh)
         else if l.held then (3, d)
         else (if l.broken then 2 else 1, lockPut d i fresh)
  | 2 => if mine then (4, lockPut d i { l with owner := 0, held := false, leaseMs := 0, leaseEnd := 0 }) else (6, d)
  | 3 => if mine then (5, lockPut d i fresh) else (6, d)
  | 4 => if mine then (7, lockPut d i { l with broken := false }) else (6, d)
  | 5 => (8, breakLock d i 3)
  | _ => (0, d)

/-- The offset of LCKi_OP (R432). -/
def lockOpOffset (i : LockNo) : Nat := 0x58000C + i.val * 16

/-- A local operation through LCKi_OP by this station's own number (R247, R253, R432); in the shadow it is ignored and result
reads NONE (R289); a reserved operation, or lease 0 in an ACQUIRE or RENEW, is refused by R7. -/
def localLock (d : Device) (src : Src) (i : LockNo) (op : Nat) (lease : BitVec 16) : Device :=
  if locksCopied d then { d with locks := tabSet {} d.locks i.val { lockAt d i.val with result := 0 } }
  else if op = 0 ∨ 5 < op ∨ ((op = 1 ∨ op = 3) ∧ lease = 0) then glbErr d 1 src (lockOpOffset i)
  else
    let (code, d) := lockOp d i op lease d.ring.station
    { d with locks := tabSet {} d.locks i.val { lockAt d i.val with result := BitVec.ofNat 4 code, opLease := lease } }

/-- The whole milliseconds left of a lease. -/
def leaseLeft (d : Device) (l : Lock) : Nat :=
  if l.held && !reached d.tim.raw l.leaseEnd then (l.leaseEnd - d.tim.raw).toNat / msTicks else 0

/-- On an OWNER_RESET of station s every lock s owns is broken (R249); the shadow's copy is not operated (R289). -/
def ownerGone (d : Device) (s : BitVec 10) : Device :=
  if locksCopied d then d
  else (List.finRange 256).foldl (fun d i =>
    let l := lockAt d i.val
    if l.held && decide (l.owner = s) then breakLock d i 1 else d) d

end Sys2Proof.Machine
end

