-- ==== Sys2Proof/Machine/TimeOps.lean ====
section
/-! DEFINITION. The shared operations of the time unit: reads of time, increments, conversions, arrival stamps, link delays and
beacon estimates (08_fabric_time.md). -/

namespace Sys2Proof.Machine

/-- The staged low half of a 64-bit register (R5, R416). -/
def stagedLow (d : Device) (off : Nat) : Word := tabGet (0 : Word) d.glb.loStage off

/-- A low half staged. -/
def stageLow (d : Device) (off : Nat) (v : Word) : Device :=
  { d with glb := { d.glb with loStage := tabSet (0 : Word) d.glb.loStage off v } }

/-- The value a high-half write commits (R5). -/
def commit64 (d : Device) (off : Nat) (hi : Word) : BitVec 64 := hi ++ stagedLow d off

/-- The word a read answers. -/
def answerWord (d : Device) (w : Word) : Device := { d with glb := { d.glb with rdata := w } }

/-- The integer nanoseconds of a fabric time, bits [79:16] (R190). -/
def nsOf (t : BitVec 80) : BitVec 64 := t.extractLsb' 16 64

/-- The fraction of a fabric time as a word. -/
def fracOf (t : BitVec 80) : Word := (t.extractLsb' 0 16).setWidth 32

/-- A read of TIM_NOW_FRAC: ft of the raw counter, latched whole (R191). -/
def nowRead (d : Device) : Word × Device :=
  let t := ftNow d d.tim.raw
  (fracOf t, { d with tim := { d.tim with nowNs := nsOf t } })

/-- A read of TIM_OFFS_FRAC: the offset, latched whole (R191). -/
def offsRead (d : Device) : Word × Device :=
  (fracOf d.tim.offset, { d with tim := { d.tim with offsNs := nsOf d.tim.offset } })

/-! ### Increments (R192 to R196) -/

/-- The writer is the servo owner, and this member is no shadow (R196, R213). -/
def mayServo (d : Device) (src : Src) : Bool :=
  decide (d.pair.role ≠ .shadow) && (match src with
    | .housekeeper => !d.tim.servoHost
    | .service => d.tim.servoHost
    | .ring _ => d.tim.servoHost)

/-- An increment of another party: ignored, owner_refused (R196, R213). -/
def ownerRefused (d : Device) : Device := { d with tim := { d.tim with evt := setBit d.tim.evt 1 } }

/-- The resident servo commits nothing while master_lost = 1, and it commits always with pair_inc = 1 (R196). -/
def servoIdle (d : Device) (src : Src) : Bool := decide (src = .housekeeper) && (d.tim.masterLost || !d.tim.pairInc)

/-- The resident servo has committed a generation within the beacon interval that runs, beacon_ms long (R196; log 116). -/
def servoDone (d : Device) (src : Src) : Bool :=
  decide (src = .housekeeper)
    && d.tim.servoAt.any (fun r => decide ((d.tim.raw - r).toNat < d.tim.beaconMs.toNat * msTicks))

/-- TIM_OFFS_INC committed, with a staged rate increment if there is one (R192, R194); the resident servo does so once in a beacon
interval (R196). -/
def offsIncCommit (d : Device) (src : Src) (hi : Word) : Device :=
  if !mayServo d src then ownerRefused d
  else if servoIdle d src || servoDone d src then d
  else
    let v := (commit64 d 0x400040 hi).setWidth 48
    { d with tim := { d.tim with
      offsInc := v, incs := d.tim.incs ++ [⟨v, d.tim.staged⟩], staged := none
      servoAt := if src = .housekeeper then some d.tim.raw else d.tim.servoAt } }

/-- TIM_RATE_INC committed: staged under pair_inc, else on its way alone, a staged one discarded (R192, R194). -/
def rateIncCommit (d : Device) (src : Src) (hi : Word) : Device :=
  if !mayServo d src then ownerRefused d
  else if servoIdle d src then d
  else
    let v := (commit64 d 0x400048 hi).setWidth 41
    let d := { d with tim := { d.tim with rateInc := v } }
    if d.tim.pairInc then { d with tim := { d.tim with staged := some v } }
    else { d with tim := { d.tim with incs := d.tim.incs ++ [⟨0, some v⟩], staged := none } }

/-- A rate lies within 1 000 ppm of 6.25 ns (R195). -/
def rateInRange (r : Int) : Bool :=
  decide (624375 * 1099511627776 ≤ r * 100000) && decide (r * 100000 ≤ 625625 * 1099511627776)

/-- A new generation, recorded in the history with its boundary (R193, R198). -/
def newGeneration (d : Device) (g : BitVec 4) (b : Raw) (rate : BitVec 48) (offset : BitVec 80) : Device :=
  { d with tim := { d.tim with rate := rate, offset := offset, gen := g, hist := d.tim.hist.set g.toFin ⟨b, rate, offset, true⟩ } }

/-- Step 6 of the start-up: time is acquired, also before the ring is ready (R400). -/
def acquireTime (d : Device) : Device := if d.glb.phase.toNat < 6 then { d with glb := { d.glb with acquired := true } } else d

/-- An application at its boundary, the raw value now (R193, R195); the partner is told (R284). -/
def applyIncrement (d : Device) (i : Increment) : Device :=
  let dr : Int := match i.dRate with
    | some v => v.toInt
    | none => 0
  let rate' : Int := (d.tim.rate.toNat : Int) + dr
  if rateInRange rate' then
    let off' := d.tim.offset + BitVec.ofInt 80 i.dOff.toInt - BitVec.ofInt 80 ((d.tim.raw.toNat : Int) * dr / 16777216)
    let d := newGeneration d (d.tim.gen + 1) d.tim.raw (BitVec.ofInt 48 rate') off'
    let d := mirrorActive d qTime (.time d.tim.rate d.tim.offset d.tim.gen d.tim.raw)
    if d.tim.cw.valid || d.tim.ccw.valid then acquireTime d else d
  else { d with tim := { d.tim with evt := setBit d.tim.evt 0, staged := none } }

/-- A T edge (R189, R192, R193): the raw counter advances by 1 and wraps (R11), and the oldest committed increment is applied, one at an
edge; a stamp sampled at the edge comes after it and belongs to the new generation (R197; log 115). -/
def tEdge (d : Device) : Device :=
  let d := spanTick (spanTick { d with tim := { d.tim with raw := d.tim.raw + 1 } } .east) .west
  match d.tim.incs with
  | [] => d
  | i :: r => applyIncrement { d with tim := { d.tim with incs := r } } i

/-! ### Conversion (R199) -/

/-- The result of a conversion, taken when it starts. -/
def convResult (d : Device) : Option (BitVec 4 × BitVec 80) :=
  if d.tim.inverse then some (d.tim.gen, convertBack d (d.tim.convIn ++ d.tim.inFrac) ++ (0 : BitVec 16))
  else if d.tim.byGen then (convertGen d d.tim.convGen d.tim.convIn).map (fun t => (d.tim.convGen, t))
  else convertRaw d d.tim.convIn

/-- A starting write of TIM_CONV_IN. -/
def convBegin (d : Device) (hi : Word) : Device :=
  let d := { d with tim := { d.tim with convIn := commit64 d 0x400068 hi } }
  { d with tim := { d.tim with convBusy := true, convRes := convResult d } }

/-- A write to the converter, applied. -/
def convWrite (d : Device) (w : ConvWrite) : Device :=
  match w with
  | .ctrl v => { d with tim := { d.tim with convGen := v.extractLsb' 0 4, byGen := v.getLsbD 4, inverse := v.getLsbD 5 } }
  | .frac v => { d with tim := { d.tim with inFrac := v.setWidth 16 } }
  | .low v => stageLow d 0x400068 v
  | .start v => convBegin d v

/-- A write to the converter: held while it is busy (R199). -/
def convPut (d : Device) (w : ConvWrite) : Device :=
  if d.tim.convBusy then { d with tim := { d.tim with convHeld := d.tim.convHeld ++ [w] } } else convWrite d w

/-- The result is delivered (R199): a forward conversion that failed sets stale and stale_seen and leaves TIM_CONV_OUT at 0;
gen_used then names the generation asked for, where one was (log 25). -/
def convDeliver (d : Device) : Device :=
  match d.tim.convRes with
  | some (g, t) => { d with tim := { d.tim with
      convBusy := false, convRes := none, genUsed := g, outVal := nsOf t, outFrac := t.setWidth 16
      stale := d.tim.stale && d.tim.inverse } }
  | none => { d with tim := { d.tim with
      convBusy := false, outVal := 0, outFrac := 0, stale := true, evt := setBit d.tim.evt 3
      genUsed := if d.tim.byGen then d.tim.convGen else d.tim.genUsed } }

/-- Held writes are applied in order, up to one that starts the next conversion (R199). -/
def convHeldRun (d : Device) (ws : List ConvWrite) : Device :=
  match ws with
  | [] => { d with tim := { d.tim with convHeld := [] } }
  | w :: r => if d.tim.convBusy then { d with tim := { d.tim with convHeld := w :: r } } else convHeldRun (convWrite d w) r

/-- The conversion in progress completes (R199). -/
def convComplete (d : Device) : Device :=
  if d.tim.convBusy then
    let d := convDeliver d
    convHeldRun d d.tim.convHeld
  else d

/-! ### Arrivals and link delays (R203, R209) -/

/-- The residence of a cell in ticks over 8 250: 128 (66 (52 + Φ) + u) (R203). -/
def residenceNum (p : LanePort) : Int := 128 * (66 * (52 + (p.phi.toNat : Int)) + (p.u.toNat : Int))

/-- The arrival raw value with its 16-bit fraction, as a whole number of 2^-16 ticks (R203). -/
def arrivalRaw (p : LanePort) (rc : Raw) (k : Nat) : Int :=
  (rc.toNat : Int) * 65536 + 65536 * (128 * 66 * (k : Int) - residenceNum p) / 8250

/-- The generation in force at a raw value with fraction (R197, R207). -/
def genAt (d : Device) (a : Int) : Hist :=
  let r := BitVec.ofInt 64 (a / 65536)
  match genOf d r with
  | some g => histOf d g
  | none => { boundary := 0, rate := d.tim.rate, offset := d.tim.offset, valid := true }

/-- The link delay of a ring port and its valid bit (R209). -/
def linkDelay (d : Device) (s : Side) : Option Int :=
  match s with
  | .east => if d.tim.pdEastOk then some d.tim.pdEast.toNat else none
  | .west => if d.tim.pdWestOk then some d.tim.pdWest.toNat else none

/-- A new link delay of a ring port (R209). -/
def setLinkDelay (d : Device) (s : Side) (v : BitVec 32) : Device :=
  match s with
  | .east => { d with tim := { d.tim with pdEast := v, pdEastOk := true } }
  | .west => { d with tim := { d.tim with pdWest := v, pdWestOk := true } }

/-- The last PDELAY_REQ of a port. -/
def pdReqOf (d : Device) (p : Port) : Option (BitVec 16 × Raw) := d.tim.pdReq[portIdx p]

/-- The last PDELAY_REQ of a port left with this seq at this raw value (R209). -/
def setPdReq (d : Device) (p : Port) (r : Option (BitVec 16 × Raw)) : Device :=
  { d with tim := { d.tim with pdReq := d.tim.pdReq.set (portIdx p) r } }

/-- A delay in nanoseconds as unsigned Q16.16; a value outside that range is one the spec states no result for. -/
def fitDelay (d : Device) (v : Int) : BitVec 32 × Device :=
  if 0 ≤ v ∧ v < 4294967296 then (BitVec.ofInt 32 v, d)
  else
    let (k, d) := takeFree d
    (Config.readValue k, d)

/-- Bytes of a payload replaced from an offset on. -/
def putBytes (bs : List Byte) (off : Nat) (new : List Byte) : List Byte :=
  bs.take off ++ new ++ bs.drop (off + new.length)

/-- Little-endian bytes of an integer, two's complement. -/
def leInt (len : Nat) (v : Int) : List Byte := leBytes len (v % (256 ^ len : Nat)).toNat

/-- A signed field of a payload, little-endian. -/
def leSigned (bs : List Byte) (off len : Nat) : Int :=
  let v := leAt bs off len
  if v < 2 ^ (8 * len - 1) then (v : Int) else (v : Int) - (2 ^ (8 * len) : Nat)

/-! ### The exchange over the mirror lane (R209, R282) -/

/-- A port has measured Φ and u, so that it exchanges peer-delay cells (R209, R227). -/
def exchanges (d : Device) (p : Port) : Bool :=
  (port d p).phiDone && (decide ((port d p).st = .training) || decide ((port d p).st = .up))

/-- A peer-delay cell of the mirror lane waits for mirror transmit (R256, R270). -/
def queueDelay (d : Device) (x : DelayCell) : Device :=
  { d with pair := { d.pair with delayOut := d.pair.delayOut ++ [x] } }

/-- A PDELAY cell of the mirror lane, numbered in the seq of its direction (R282). -/
def mirrorCell (d : Device) (payload : List Byte) : RCell × Device :=
  ({ dest := 0, src := d.ring.station, ctype := 45, seq := d.pair.mirSeq, epoch := 0, hop := 0, bcast := false, pair := false
     retried := false, wrapOdd := false, payload := fitTo 64 payload, seqEcho := d.pair.mirSeq, crc := 0 },
   { d with pair := { d.pair with mirSeq := d.pair.mirSeq + 1 } })

/-- The seq of a mirror cell that arrives is noted; a gap ends IN_STEP (R11, R283). -/
def mirSeen (d : Device) (q : BitVec 16) : Device :=
  let gap := d.pair.mirGot.any (fun l => decide (q ≠ l + 1))
  let d := { d with pair := { d.pair with mirGot := some q } }
  if gap then startResync d else d

/-- A span-local cell arrives at a lane port; on the mirror lane it counts in the seq, and one that fails its CRC ends IN_STEP (R11, R29,
R220, R282, R283). -/
def arriveAt (d : Device) (p : Port) (c : RCell) : Option RCell × Device :=
  match arrive d p c with
  | (some c, d) => (some c, if p = .mirror then mirSeen d c.seq else d)
  | (none, d) => (none, if decide (p = .mirror) && (port d p).blockLock && decide (c.crc ≠ cellCrc c) then startResync d else d)

/-! ### Beacons (R204 to R208) -/

/-- A beacon as the master queues it: origin and generation are inserted as it leaves (R205). -/
def beaconBody (d : Device) (ccw : Bool) (wraps : Nat) : List Byte :=
  leBytes 2 1 ++ leBytes 1 ccw.toNat ++ leBytes 1 wraps ++ leBytes 1 d.tim.flags.toNat ++ leBytes 1 0
    ++ leBytes 2 d.tim.utc.toNat ++ leBytes 56 0

/-- What a station adds to the correction of a beacon it forwards or wraps, and whether its link delay is known (R206). -/
def beaconAdds (d : Device) (s : Side) (rate : BitVec 48) : Int × Bool :=
  let res := residenceNum (port d (sidePort s)) * (rate.toNat : Int) / (8250 * 16777216)
  match linkDelay d s with
  | some v => (v + res, true)
  | none => (res, false)

/-- A beacon goes on from a station (R206, R232): correction, incomplete, and, where the side it would leave by is wrapped, its
wraps. -/
def forwardBeacon (d : Device) (s : Side) (c : RCell) (rate : BitVec 48) : Device :=
  let (add_, known) := beaconAdds d s rate
  let body := putBytes c.payload 24 (leInt 8 (leSigned c.payload 24 8 + add_))
  let body := if known then body else putBytes body 4 (leBytes 1 (leAt body 4 1 ||| 16))
  if d.ring.join = .off then d
  else if wrapped d (otherSide s) then
    let body := putBytes body 3 (leBytes 1 (min 255 (leAt body 3 1 + 1)))
    putLane d s { c with payload := body, wrapOdd := !c.wrapOdd, hop := 0 }
  else putLane d (otherSide s) { c with payload := body }

/-- An error in 2^-16 ns held in signed Q32.16: the field and err_range (R207). -/
def clampErr (e : Int) : BitVec 48 × Bool :=
  if e < -(140737488355328 : Int) then (0x800000000000#48, true)
  else if 140737488355327 < e then (0x7FFFFFFFFFFF#48, true)
  else (BitVec.ofInt 48 e, false)

/-- The estimate of a beacon from the master that arrived at a side (R207). DESIGN CHOICE: a D_up of its own port that is not valid counts as
0 and makes the estimate incomplete (log 148). -/
def beaconEstimate (d : Device) (s : Side) (c : RCell) (a : Int) : Est :=
  let h := genAt d a
  let dUp := (linkDelay d s).getD 0
  let t := BitVec.ofInt 80 (leSigned c.payload 8 10 + leSigned c.payload 24 8 + dUp)
  let (e, range) := clampErr (t - ftAt h.rate h.offset a 65536).toInt
  { err := e, valid := true, wrapped := decide (leAt c.payload 3 1 ≠ 0)
    incomplete := decide (leAt c.payload 4 1 / 16 % 2 = 1) || (linkDelay d s).isNone
    range := range, seq := c.seq, hops := c.hop }

/-- The route skew, once both beacons of one master sequence have arrived unwrapped and complete (R208). -/
def skewUpdate (d : Device) : Device :=
  let a := d.tim.cw
  let b := d.tim.ccw
  if !d.tim.routeChanged && a.valid && b.valid && decide (a.seq = b.seq) && !a.wrapped && !b.wrapped && !a.incomplete
      && !b.incomplete then
    { d with tim := { d.tim with skew := BitVec.ofInt 48 ((a.err.toInt - b.err.toInt) / 2), skewValid := true } }
  else d

/-- A beacon's estimate can be used: valid, unwrapped and complete (R208, R211). -/
def usable (e : Est) : Bool := e.valid && !e.wrapped && !e.incomplete

/-- The resident servo estimates its error as e_dir - skew_dir, dir CW when both directions can be used, else the one that can; the skew of
CCW is - skew_cw (R208, R211). The value stays what it was while neither can. DESIGN CHOICE: the skew last measured is used also while its
valid is 0 (R212; log 149). -/
def servoEstimate (d : Device) : Device :=
  let t := d.tim
  if usable t.cw then { d with tim := { t with servoErr := some (t.cw.err.signExtend 49 - t.skew.signExtend 49, true) } }
  else if usable t.ccw then { d with tim := { t with servoErr := some (t.ccw.err.signExtend 49 + t.skew.signExtend 49, false) } }
  else d

/-- A beacon of the station in TIM_MASTER has arrived: master_lost clears, and the island reference is selected again where it was set
(R30, R212). -/
def masterHeard (d : Device) : Device :=
  let was := d.tim.masterLost
  let d := { d with tim := { d.tim with masterLost := false, beaconAt := d.tim.raw } }
  if was then refSelect d else d

/-- A beacon of the station in TIM_MASTER updates the estimate of its ring, the skew and the servo's error, and master_lost clears (R207,
R208, R211, R212). -/
def takeBeacon (d : Device) (s : Side) (c : RCell) (a : Int) : Device :=
  let e := beaconEstimate d s c a
  let d := match s with
    | .west => { d with tim := { d.tim with cw := e } }
    | .east => { d with tim := { d.tim with ccw := e } }
  let d := servoEstimate (skewUpdate (masterHeard d))
  if d.tim.servoHost then acquireTime d else d

end Sys2Proof.Machine
end

