-- ==== Sys2Proof/Machine/PairForm.lean ====
section
/-! DEFINITION. The shared operations of a pair's life: requests of this station over the ring, forming, the ring check,
resync, heartbeats and castling (11_pair.md, R244). -/

namespace Sys2Proof.Machine

/-! ### Roles (R290) -/

/-- The place of a role preference: active first, none second, shadow last (R290). -/
def prefRank (p : Nat) : Nat := if p = 1 then 0 else if p = 2 then 2 else 1

/-- This member outranks a partner of a preference (R290). -/
def outranks (d : Device) (pref : Nat) : Bool :=
  let own := prefRank d.pair.pref.toNat
  decide (own < prefRank pref) || (decide (own = prefRank pref) && decide ((ownNumber d).toNat < d.pair.partner.toNat))

/-- The member still has no role, or evaluates again in its isolation (R290). -/
def evaluating (d : Device) : Bool :=
  decide (d.pair.role = .forming)
    || (decide (d.pair.role = .active) && d.pair.fenced && d.pair.formRing && decide (d.pair.st = .isolated))

/-- A role is taken (R290). -/
def assume (d : Device) (active : Bool) (st : PairSt) : Device :=
  let d := { d with pair := { d.pair with
    role := if active then .active else .shadow, formRing := false, fenced := false, check := none, checkDue := false, giving := 0
    castling := none, castled := 0, held := 0 } }
  let d := enterState d st
  if active then holdAll d else d

/-- The evaluation by the ring goes one step on (R290): the station is JOINED and the partner in its map, so its PAIR_STAT is
read, then its TAG_ROLE (log 26). -/
def formStep (d : Device) : Device :=
  if evaluating d && d.pair.formRing && decide (d.ring.mirror.st ≠ .up) && decide (d.ring.join = .joined)
      && (routeTo d d.pair.partner).isSome && !d.ring.reqs.any (fun r => decide (r.why = .formRead)) then
    (readPartner d .formRead pairStatOffset []).2
  else d

/-- The partner answers on the ring with PAIR_STAT and TAG_ROLE, the mirror lane not UP (R290). -/
def formAnswer (d : Device) (stat role : Word) : Device :=
  if !evaluating d then d
  else if fld stat 0 2 = 1 then assume d false .splitSuspect
  else assume d (outranks d (fld role 0 2)) .splitSuspect

/-- The read completes with a status other than OK, or the partner is absent (R290). -/
def formAlone (d : Device) : Device := if evaluating d then assume d true .partnerLost else d

/-! ### Resync (R283) -/

/-- Both directions have completed: IN_STEP again; a fenced active takes its channels back (R278, R283; log 24). -/
def stepIn (d : Device) : Device :=
  if d.pair.st = .resync ∧ d.pair.resyncSent ∧ d.pair.resyncGot then
    let d := { d with pair := { d.pair with st := .inStep, check := none, checkDue := false } }
    if d.pair.role = .active ∧ d.pair.fenced then holdAll { d with pair := { d.pair with fenced := false } } else d
  else d

/-- The mirrored items of entry i: its words where it is not FREE, and its state in every case (R283, R284). -/
def entryItems (d : Device) (n : ChanNo) (i : LqIdx) : List (ReqNo × MirMsg) :=
  let e := lqEnt d n i
  let q := qChan n
  (if e.st = .free then [] else (List.finRange 24).map (fun w => (q, MirMsg.lqWin n i w.val (lqWord d n i w.val))))
    ++ [(q, MirMsg.lqState n i e.st e.cancel e.late (decide (e.st ≠ .free)))]

/-- The mirrored items of a journal: the policy, the read position once an entry has been popped, the mark or that there is none
(R284, R288). -/
def journalItems (n : ChanNo) (j : Journal) : List (ReqNo × MirMsg) :=
  let q := qChan n
  [(q, MirMsg.jpos n (.policy j.hold) (j.posTime.getD 0))]
    ++ (match j.posTime with
      | some t => [(q, MirMsg.jpos n .pop t)]
      | none => [])
    ++ (match j.mark with
      | some _ => [(q, MirMsg.jpos n .setMark (j.markTime.getD 0))]
      | none => [(q, MirMsg.jpos n .clearMark 0)])

/-- The mirrored items of a channel this member holds (R283, R284). -/
def chanItems (d : Device) (n : ChanNo) : List (ReqNo × MirMsg) :=
  let c := chan d n
  let q := qChan n
  lqAll.flatMap (entryItems d n) ++ [(q, MirMsg.fc n c.fe.tec c.fe.recv c.fe.fcState)] ++ journalItems n c.jn
    ++ [(q, MirMsg.ballot n c.slp.phase c.slp.number c.slp.windowEnd c.slp.descentEnd false)]
    ++ (List.finRange 16).map (fun i => (q, MirMsg.holdlog n i.val c.slp.log[i]))

/-- The mirrored contexts (R284, R309). -/
def contextItems (d : Device) : List (ReqNo × MirMsg) :=
  (List.finRange 8).flatMap (fun k => (List.finRange 32).filterMap (fun c =>
    let x := d.eng[k].ctx[c]
    if x.cfg.getLsbD 24 then some (qEng k, MirMsg.context k c x.g) else none))

/-- The mirrored locks (R284). -/
def lockItems (d : Device) : List (ReqNo × MirMsg) :=
  (List.finRange 256).map (fun i =>
    let l := lockAt d i.val
    (qHouse, MirMsg.lock i l.owner l.held l.leaseMs l.leaseEnd l.broken))

/-- Every mirrored item this member is the source of, then the RESYNC that ends the direction, of the partner's resync no (R283; log 27). -/
def resyncItems (d : Device) (no : BitVec 8) : List (ReqNo × MirMsg) :=
  let own := (chansOf d.pair.held).flatMap (chanItems d)
  let act := if d.pair.role = .active then
      [(qTime, MirMsg.time d.tim.rate d.tim.offset d.tim.gen (histOf d d.tim.gen).boundary),
       (qHouse, MirMsg.epoch d.pair.epoch d.ring.epoch d.pair.castled)] ++ contextItems d ++ lockItems d
    else []
  own ++ act ++ [(qHouse, MirMsg.resync no)]

/-- The partner's resync for which the items are due: the one that its last HEARTBEAT reports, where they have not been queued for it yet
(R283). -/
def resyncDue (d : Device) : Option (BitVec 8) :=
  match d.pair.peer with
  | some m =>
    if decide (d.pair.st = .resync) && (decide (d.pair.role = .active) || decide (d.pair.role = .shadow)) && decide (m.state = 1)
        && decide (d.pair.resyncFor ≠ some m.resyncNo) then some m.resyncNo else none
  | none => none

/-- The banks that the words of the held channels' entries are read from, each by the channel's mirror part (R255, R256). -/
def resyncNeeds (d : Device) : List (Requester × ResNo) :=
  ((chansOf d.pair.held).filter (fun n => (chan d n).lq.base.isSome && (lqListed d n).any (fun i => decide ((lqEnt d n i).st ≠ .free)))).map
    (fun n => ((qChan n, .mirror), bankOf (lqPlace d n 0 0)))

/-- The items of the running resync are queued, once for each resync of the partner, when the channels have the banks of the words (R256,
R283; log 136). -/
def queueResync (d : Device) : Device :=
  match resyncDue d with
  | none => d
  | some no =>
    let rs := resyncNeeds d
    if rs.all (fun x => canUse d x.1 x.2) then
      let d := rs.foldl (fun d x => useAll d x.1 .resync [x.2]) d
      { d with pair := { d.pair with mirOut := d.pair.mirOut ++ resyncItems d no, resyncFor := some no, resyncSent := false } }
    else rs.foldl (fun d x => awaitAll d x.1 .resync [x.2]) d

/-! ### The ring check (R292 to R294) -/

/-- A side UP. -/
def ringUp (d : Device) : Bool := decide (d.ring.east.st = .up) || decide (d.ring.west.st = .up)

/-- SPLIT_SUSPECT is entered, with its event (R292): both members keep their roles and holders, so that a castling under way is abandoned
(R294; log 155). -/
def enterSplit (d : Device) : Device := if d.pair.st = .splitSuspect then d else splitEvent (enterState (abandon d) .splitSuspect)

/-- The ring check: a one-word RD_REQ of the partner's PAIR_STAT; without a route it fails at once (R292), without a free tag it waits
for one (R244). -/
def ringCheck (d : Device) : Device :=
  match readPartner d .ringCheck pairStatOffset [] with
  | (some q, d) => { d with pair := { d.pair with check := some (q, false), checkDue := false } }
  | (none, d) => if (routeTo d d.pair.partner).isNone then checkFailed d else { d with pair := { d.pair with checkDue := true } }

/-- A request tag has become free: a ring check that waits for one leaves (R244). -/
def checkKick (d : Device) : Device := if d.pair.checkDue then ringCheck d else d

/-- A check is answered with status OK (R292, R293). -/
def checkAnswered (d : Device) : Device := enterSplit { d with pair := { d.pair with check := none, checkDue := false } }

/-- Heartbeat loss is declared (R281, R292, R293). -/
def heartbeatLost (d : Device) : Device :=
  if !d.pair.hbOk then d
  else
    let d := { d with pair := { d.pair with hbOk := false, hbLoss := cntUp d.pair.hbLoss, outOfStep := decide (d.pair.st ≠ .inStep) } }
    if d.pair.role = .shadow then
      if !ringUp d then castlingEvent (enterState d .isolated) wholePair 6 false
      else if d.pair.st = .mismatch then castlingEvent d wholePair 6 false
      else ringCheck d
    else if d.pair.role = .active then
      if !ringUp d then castlingEvent (fence d) wholePair 5 false else ringCheck d
    else d

/-! ### Giving up (R280) -/

/-- All held channels are to be given up, for a castling or because the other member stays active (R280, R290, R298). -/
def giveAll (d : Device) (why : TokenWhy) : Device := { d with pair := { d.pair with giving := d.pair.held, castling := some why } }

/-- One channel given up at its moment: idle with nothing ON_BUS, or in bus-off (R280). -/
def mayGive (d : Device) (n : ChanNo) : Bool :=
  let f := (chan d n).fe
  decide (f.fcState = .busOff)
    || ((lqListed d n).all (fun i => decide ((lqEnt d n i).st ≠ .onBus)) && (idleBus f || decide (modeOf d n = .idle)))

/-- TOKEN for one channel that moves by command (R300): the map, the epochs, the events. -/
def movedOut (d : Device) (n : ChanNo) : Device :=
  let d := mirrorQueue d qHouse (.token (setBit 0 n.val) .channel)
  let d := recordMove { d with pair := { d.pair with castling := none, evt := setBit d.pair.evt 2 } } n false
  castlingEvent (mirrorEpoch (peerAdvance (advanceEpochs d))) n.val 3 false

/-- A channel to be given up reaches its moment (R280, R298, R300). -/
def tokenRelease (d : Device) (n : ChanNo) : Device :=
  if d.pair.giving.getLsbD n.val && mayGive d n then
    let d := giveChan d n
    match d.pair.castling with
    | some .channel => movedOut d n
    | some .plain => gaveAll (mirrorQueue d qHouse (.token (setBit 0 n.val) .plain))
    | _ => gaveAll d
  else d

/-- The read of the partner in SPLIT_SUSPECT found it ACTIVE too: the member that does not outrank it steps down (R290). -/
def splitAnswer (d : Device) (stat role : Word) : Device :=
  if d.pair.role = .active ∧ d.pair.st = .splitSuspect ∧ fld stat 0 2 = 1 ∧ outranks d (fld role 0 2) = false
  then gaveAll (giveAll d .plain) else d

/-- PAIR_RESULT (R303). -/
def pairResult (d : Device) (code : Nat) (whole : Bool) (n : Option ChanNo) : Device :=
  { d with pair := { d.pair with
    resCode := BitVec.ofNat 4 code, resWhole := whole
    resChan := match n with
      | some k => BitVec.ofNat 6 k.val
      | none => d.pair.resChan } }

/-- A castling is in progress, here, asked of the partner or begun by it (R300). -/
def castlingNow (d : Device) : Bool := decide (d.pair.castling ≠ none) || d.pair.asked || d.pair.peerCastling

/-- The partner is told that a castling has begun here, or has come to nothing (R300; log 106). -/
def tellCastling (d : Device) (why : TokenWhy) : Device := mirrorQueue d qHouse (.token 0 why)

/-- The active begins the castling of the whole pair (R298). -/
def castleWhole (d : Device) : Device := gaveAll (giveAll (tellCastling { d with pair := { d.pair with outOfStep := false } } .begun) .whole)

/-- The holder of channel n begins to give it up (R300). -/
def castleChannel (d : Device) (n : ChanNo) : Device :=
  tellCastling { d with pair := { d.pair with giving := setBit d.pair.giving n.val, castling := some .channel } } .begun

/-- The partner is asked over the mirror lane for the castling of the channels named (R291, R300; log 106). -/
def askPartner (d : Device) (q : ReqNo) (m : BitVec 64) : Device :=
  mirrorQueue { d with pair := { d.pair with asked := true } } q (.token m .ask)

/-- castle (R291, R298): performed at the active, which the shadow asks for it. -/
def castleOp (d : Device) : Device :=
  if d.pair.role = .unpaired ∨ d.pair.role = .forming then pairResult d 6 true none
  else if d.pair.st ≠ .inStep then pairResult d 2 true none
  else if castlingNow d then pairResult d 5 true none
  else
    let d := pairResult d 1 true none
    if d.pair.role = .active then castleWhole d else askPartner d qHouse (BitVec.allOnes 64)

/-- The code with which the castling of channel n is refused, 1 where it is not: the member that would receive the channel has fc_local = 1 or
is in bus-off, or the channel's role does not drive (R300, R303); a castling in progress is found first (R434). -/
def channelCode (d : Device) (n : ChanNo) : Nat :=
  let f := (chan d n).fe
  let bad := if holdsChan d n then d.pair.peerLocal.getLsbD n.val || decide (f.fcState = .busOff)
    else d.pair.fcLocal.getLsbD n.val || decide (f.fcState = .busOff)
  if d.pair.role = .unpaired ∨ d.pair.role = .forming then 6
  else if d.pair.st ≠ .inStep then 2
  else if castlingNow d then 5
  else if bad then 3
  else if !mayDrive f.role then 4
  else 1

/-- go of PAIR_CHCMD (R300): the holder gives the channel up, the other member asks it to. -/
def channelCastleOp (d : Device) (n : ChanNo) : Device :=
  let code := channelCode d n
  let d := pairResult d code false (some n)
  if code ≠ 1 then d
  else if holdsChan d n then castleChannel d n
  else askPartner d (qChan n) (setBit 0 n.val)

/-- The partner has asked for a castling (R291, R300): it is begun where it could be commanded here, else it does not come about, and the
partner is told so. -/
def askedFor (d : Device) (m : BitVec 64) : Device :=
  if m = BitVec.allOnes 64 then
    (if d.pair.role = .active ∧ d.pair.st = .inStep ∧ castlingNow d = false then castleWhole d else tellCastling d .over)
  else forChans d (chansOf m) (fun d n =>
    if channelCode d n = 1 ∧ holdsChan d n = true then castleChannel d n else tellCastling d .over)

/-- The partner has begun a castling: of two begun at once the active's goes on, and the shadow's comes to nothing (R300; log 106). -/
def partnerBegins (d : Device) : Device :=
  if d.pair.castling = none then { d with pair := { d.pair with peerCastling := true } }
  else if d.pair.role = .shadow ∧ d.pair.castling = some .channel
  then { d with pair := { d.pair with giving := 0, castling := none, peerCastling := true } }
  else d

/-! ### Heartbeats (R281, R283, R290) -/

/-- The codes of role and pair_state (R303). -/
def roleCode (r : PairRole) : BitVec 2 :=
  match r with
  | .unpaired => 0
  | .active => 1
  | .shadow => 2
  | .forming => 3

/-- The code of pair_state. -/
def pairStCode (s : PairSt) : BitVec 3 :=
  match s with
  | .inStep => 0
  | .resync => 1
  | .partnerLost => 2
  | .splitSuspect => 3
  | .mismatch => 4
  | .isolated => 5

/-- The HEARTBEAT of now (R281). -/
def heartbeatNow (d : Device) : HbMsg :=
  { role := roleCode d.pair.role, state := pairStCode d.pair.st, pairEpoch := d.pair.epoch, stEpoch := d.ring.epoch
    digest := d.pair.digest, pref := d.pair.pref, fcLocal := d.pair.fcLocal, rawDiff := d.pair.rawDiff
    resyncNo := d.pair.resyncNo }

/-- A role by the HEARTBEAT (R290). -/
def formByHeartbeat (d : Device) (m : HbMsg) : Device :=
  let same := decide (m.digest = d.pair.digest)
  let up := outranks d m.pref.toNat
  if !same then assume d (decide (m.role ≠ 1) && up) .mismatch
  else if m.role = 1 then assume d false .resync
  else if m.role = 2 then assume d true .resync
  else assume d up .resync

/-- Both report ACTIVE: the later pair epoch stays, on equal ones the lower station number (R290). -/
def staysActive (d : Device) (m : HbMsg) : Bool :=
  if m.pairEpoch = d.pair.epoch then decide ((ownNumber d).toNat < d.pair.partner.toNat) else laterThan d.pair.epoch m.pairEpoch

/-- Two pair epochs half the count apart, whose order is undefined: the device treats them as mismatched (R11). -/
def epochsClash (d : Device) (m : HbMsg) : Bool := decide (m.pairEpoch - d.pair.epoch = 0x80#8)

/-- Both members report ACTIVE (R290): one gives up every channel. Epochs without an order leave both ACTIVE in MISMATCH (R11; log 108). -/
def bothActive (d : Device) (m : HbMsg) : Device :=
  if epochsClash d m then (if d.pair.st = .mismatch then d else enterState d .mismatch)
  else if staysActive d m ∨ d.pair.castling ≠ none then d
  else gaveAll (giveAll d .plain)

/-- Both members report SHADOW, a TOKEN of all channels having been lost between them: the one that outranks the other becomes the active
(R278, R290; log 156). -/
def bothShadow (d : Device) (m : HbMsg) : Device :=
  if outranks d m.pref.toNat then sendRoute (assume (advanceEpochs d) true .resync) 1 m.stEpoch else d

/-- A HEARTBEAT arrives (R281, R283, R290): the partner's role, state, epochs and fc_local map; the active's PAIR_RAWDIFF is the shadow's with
its sign inverted (R434); differing digests are MISMATCH. A partner in a resync that this member has not answered takes it there; the items
are sent once the partner is in RESYNC, which takes them (R283, R294). -/
def heartbeatArrives (d : Device) (m : HbMsg) : Device :=
  let d := { d with pair := { d.pair with
    hbOk := true, peer := some m, peerLocal := m.fcLocal
    rawDiff := if d.pair.role = .active ∧ m.role = 2 then -m.rawDiff else d.pair.rawDiff } }
  if d.pair.role = .unpaired then d
  else if evaluating d then formByHeartbeat d m
  else
  let d := if m.digest = d.pair.digest ∨ d.pair.st = .mismatch then d else enterState d .mismatch
  if d.pair.role = .active ∧ m.role = 1 then bothActive d m
  else if m.digest ≠ d.pair.digest then d
  else if d.pair.role = .shadow ∧ m.role = 2 then bothShadow d m
  else
    let other := (decide (d.pair.role = .active) && decide (m.role = 2)) || (decide (d.pair.role = .shadow) && decide (m.role = 1))
    let turned := decide (d.pair.st = .inStep) && decide (m.state = 1) && decide (d.pair.resyncFor ≠ some m.resyncNo)
    let back := decide (d.pair.st = .splitSuspect) || decide (d.pair.st = .partnerLost) || decide (d.pair.st = .isolated)
      || decide (d.pair.st = .mismatch)
    let d := if other && (back || turned) then enterState { d with pair := { d.pair with check := none, checkDue := false } } .resync else d
    if other then queueResync d else d

/-! ### What arrives over the mirror (R284, R287, R288, R461) -/

/-- Mirror items are taken: a formed pair in step or in resync (R290, R294). -/
def mirrorTakes (d : Device) : Bool :=
  (decide (d.pair.role = .active) || decide (d.pair.role = .shadow))
    && (decide (d.pair.st = .inStep) || decide (d.pair.st = .resync))

/-- A mirrored commit: a launch time that stands as the partner wrote it is translated, once (R461). -/
def translateLaunch (d : Device) (n : ChanNo) (i : LqIdx) : Device :=
  if lqTimed d n i && decide (tabGet none (chan d n).lq.abroad i.val = none) then
    let r := lqLaunch d n i
    let l := translate d r
    setAbroad (lqSetWord (lqSetWord d n i 2 (l.extractLsb' 0 32)) n i 3 (l.extractLsb' 32 32)) n i (some r)
  else d

/-- The place after the last whole visible or popped entry whose stamp's fabric time is at or before t, and that entry's time (R288):
the entries are found by END marks from position p on. -/
def placeAfter (d : Device) (j : Journal) (t : BitVec 80) (p start : Nat) (best : Nat × Option (BitVec 80)) (fuel : Nat) :
    Nat × Option (BitVec 80) :=
  match fuel with
  | 0 => best
  | k + 1 =>
    if j.wr ≤ p then best
    else if tabGet false d.sram.ends (jPlace j p) then
      let w := fun i => sramWord d (jPlace j (start + i))
      match entryTime d [w 0, w 1, w 2, w 3] with
      | some e => placeAfter d j t (p + 1) (p + 1) (if timeLe e t then (p + 1, some e) else best) k
      | none => placeAfter d j t (p + 1) (p + 1) best k
    else placeAfter d j t (p + 1) start best k

/-- The first entry boundary at or after position p, found by END marks. -/
def boundaryFrom (d : Device) (j : Journal) (p fuel : Nat) : Nat :=
  match fuel with
  | 0 => p
  | k + 1 => if p = 0 then 0 else if tabGet false d.sram.ends (jPlace j (p - 1)) then p else boundaryFrom d j (p + 1) k

/-- The oldest position whose word the journal still holds. -/
def jOldest (j : Journal) : Nat := j.wr - min j.wr (jCap j - j.tent.length)

/-- Fabric time t with pos_tol (R288). -/
def withTol (d : Device) (t : BitVec 80) : BitVec 80 := t + BitVec.ofNat 80 (d.pair.posTol.toNat * 65536)

/-- The place a mirrored time names in the receiver's journal, of the words it still holds, and the time of the entry before it
(R288). -/
def mirroredPlace (d : Device) (n : ChanNo) (t : BitVec 80) : Nat × Option (BitVec 80) :=
  let j := (chan d n).jn
  let low := boundaryFrom d j (jOldest j) 24
  placeAfter d j (withTol d t) low low (low, none) (j.wr - low)

/-- The read position moves on to the place found, never back (R288). -/
def advanceTo (d : Device) (n : ChanNo) (t : BitVec 80) : Device :=
  let x := mirroredPlace d n t
  onJn d n (fun j =>
    let j := { j with consumeTo := some (withTol d t) }
    if j.rd < x.1 then { j with rd := x.1, popHdr := [], posTime := x.2.or j.posTime } else j)

/-- A JPOS cell (R284, R288). -/
def journalMirrored (d : Device) (n : ChanNo) (op : JposOp) (t : BitVec 80) : Device :=
  match op with
  | .pop => advanceTo d n t
  | .flush => advanceTo d n t
  | .setMark =>
    let x := mirroredPlace d n t
    onJn d n (fun j => { j with mark := some x.1, markHdr := [], markTime := x.2 })
  | .rewind => onJn d n (fun j => match j.mark with
      | some m => { j with rd := m, consumeTo := some (withTol d t), popHdr := j.markHdr, posTime := j.markTime }
      | none => j)
  | .clearMark => onJn d n (fun j => { j with mark := none })
  | .policy h => onJn d n (fun j => { j with hold := h })

/-- A TIME cell at the shadow (R213): the active's rate and generation, its offset adjusted by the raw difference, the boundary
translated. -/
def timeMirrored (d : Device) (rate : BitVec 48) (offset : BitVec 80) (gen : BitVec 4) (boundary : Raw) : Device :=
  let adj := BitVec.ofInt 80 ((rate.toNat : Int) * d.pair.rawDiff.toInt / 1099511627776)
  let d := newGeneration d gen (translate d boundary) rate (offset + adj)
  if d.tim.cw.valid || d.tim.ccw.valid then acquireTime d else d

/-- A LOCK cell at the shadow: owner, lease end and mark (R284, R289). -/
def lockMirrored (d : Device) (i : LockNo) (owner : BitVec 10) (held : Bool) (leaseMs : BitVec 16) (leaseEnd : Raw)
    (broken : Bool) : Device :=
  let l := { lockAt d i.val with
    owner := owner, held := held, leaseMs := leaseMs, leaseEnd := if held then translate d leaseEnd else 0, broken := broken }
  { d with locks := tabSet {} d.locks i.val l }

/-- A channel arrives by castling (R299, R300): the map, the epochs, ROUTE_UPDATE, the token and the event; a castling of the whole pair
that runs here gives it up with the others (R298). -/
def movedIn (d : Device) (n : ChanNo) (kind : Nat) : Device :=
  let d := recordMove { d with pair := { d.pair with evt := setBit d.pair.evt 3 } } n true
  let d := takeChan d n
  let d := if d.pair.castling = some .whole then { d with pair := { d.pair with giving := setBit d.pair.giving n.val } } else d
  let d := peerAdvance (advanceEpochs d)
  let d := sendRoute (mirrorEpoch d) 3 (peerEpoch d)
  castlingEvent d n.val kind true

/-- A TOKEN cell (R280, R298 to R300); in SPLIT_SUSPECT and the like both members keep their roles and holders, but for the channels of a
conflict lost (R290, R294). -/
def tokenArrives (d : Device) (channels : BitVec 64) (why : TokenWhy) : Device :=
  let ns := chansOf (channels &&& driveChans d)
  match why with
  | .plain => forChans d ns takeChan
  | .whole =>
    if d.pair.role = .shadow ∧ mirrorTakes d then
      let d := peerAdvance { d with pair := { d.pair with outOfStep := decide (d.pair.st ≠ .inStep), asked := false } }
      promote d false 2 1 (peerEpoch d)
    else d
  | .busOff => if mirrorTakes d then forChans d ns (fun d n =>
      let d := fcChange d n 0 0 .active (busStamp d n) d.tim.gen
      movedIn { d with pair := { d.pair with peerLocal := setBit d.pair.peerLocal n.val } } n 2) else d
  | .channel => if mirrorTakes d
      then forChans { d with pair := { d.pair with asked := false, peerCastling := false } } ns (fun d n => movedIn d n 3) else d
  | .ask => if mirrorTakes d then askedFor d channels else d
  | .begun => if mirrorTakes d then partnerBegins d else d
  | .over => { d with pair := { d.pair with asked := false, peerCastling := false } }

end Sys2Proof.Machine
end

