-- ==== Sys2Proof/Machine/RingFamily.lean ====
section
/-! DEFINITION. The meanings of the ring unit's commands on ports, training, topology and fabric locks (09_ring.md). -/

namespace Sys2Proof.Machine

/-- A ring port out of use: DOWN, its lock, measurements and peer delay gone. -/
def portOff (d : Device) (p : Port) : Device :=
  let d := onPort d p (fun q => { q with
    st := .down, blockLock := false, phiDone := false, trains := 0, unwraps := 0, spanDowns := 0, nbrValid := false
    spanDownTx := false })
  { d with tim := { d.tim with
    pdEastOk := d.tim.pdEastOk && decide (p ≠ .east), pdWestOk := d.tim.pdWestOk && decide (p ≠ .west) } }

/-- A port may train: a ring port with ring_en = 1, the mirror lane without waiting for it (R227, R400); in recovery mode none (R390). -/
def mayTrain (d : Device) (p : Port) : Bool := (d.ring.en || decide (p = .mirror)) && !d.svc.recovery

/-- A port whose module is present starts to train (R227). -/
def trainIfPresent (d : Device) (p : Port) : Device := if (port d p).modAbs || !mayTrain d p then d else startTraining d p

/-- ring_en written (R227, R229); in recovery mode nothing trains and no join begins (R390). DEDUCED: 0 leads to OFF in COLLISION too (R230;
log 151). -/
def ringEnable (d : Device) (v : Bool) : Device :=
  if v = d.ring.en then d
  else if v then
    let join := if d.svc.recovery then .off else .training
    let d := { d with ring := { d.ring with en := true, join := join, joinRaw := d.tim.raw } }
    trainIfPresent (trainIfPresent d .east) .west
  else
    let d := topologyLearnt (portOff (portOff d .east) .west)
    refSelect { d with ring := { d.ring with en := false, join := .off, joinRaw := d.tim.raw, wrapEast := false, wrapWest := false } }

/-- RING_EN_WRITE (R227, R229). -/
def execRingEnWrite (v : Bool) (s : State) : Host.Outcome State Fault Refusal := latAct s (fun d => ringEnable d v)

/-- rejoin: COLLISION is left, JOINING entered again, with the number now in the tag area (R229, R230, R410). -/
def rejoinOp (d : Device) : Device :=
  if d.ring.join ≠ .off ∧ (d.ring.east.st = .up ∨ d.ring.west.st = .up) then enterJoining d else d

/-- REJOIN (R230, R410). -/
def execRejoin (s : State) : Host.Outcome State Fault Refusal := latAct s rejoinOp

/-- A retrain strobe: training starts afresh where the module is present and, on a ring port, ring_en = 1 (R227). A side that
was UP carries nothing while it trains, so it is wrapped, and the mirror lane ends IN_STEP (log 23). -/
def retrain (d : Device) (p : Port) : Device :=
  if mayTrain d p && !(port d p).modAbs then
    let was := (port d p).st
    let d := startTraining d p
    if was = .up then
      match p with
      | .east => wrapFailed d .east
      | .west => wrapFailed d .west
      | .mirror => mirrorDown d
    else d
  else d

/-- RETRAIN_EAST (R227). -/
def execRetrainEast (s : State) : Host.Outcome State Fault Refusal := latAct s (fun d => retrain d .east)

/-- RETRAIN_WEST (R227). -/
def execRetrainWest (s : State) : Host.Outcome State Fault Refusal := latAct s (fun d => retrain d .west)

/-- RETRAIN_MIRROR (R227). -/
def execRetrainMirror (s : State) : Host.Outcome State Fault Refusal := latAct s (fun d => retrain d .mirror)

/-- BLOCK_LOCK (R216, R227, R29, R30): a port that is DOWN or in training, its module present, has block lock. -/
def execBlockLock (p : Port) (s : State) : Host.Outcome State Fault Refusal :=
  latAct s (fun d =>
    let q := port d p
    if mayTrain d p && !q.modAbs && (decide (q.st = .down) || decide (q.st = .training)) then
      let d := if q.st = .down then startTraining d p else d
      refSelect (onPort d p (fun q => { q with blockLock := true, rxLos := false, txFault := false }))
    else d)

/-- PHI_MEASURED (R227 step 3, R228): the mirror lane is UP after it (R215). -/
def execPhiMeasured (p : Port) (phi : BitVec 2) (u : Fin 66) (s : State) : Host.Outcome State Fault Refusal :=
  latAct s (fun d =>
    if (port d p).st = .training ∧ (port d p).blockLock ∧ !(port d p).phiDone then
      let d := onPort d p (fun q => { q with phi := phi, u := BitVec.ofNat 7 u.val, phiDone := true })
      if p = .mirror then onPort d p (fun q => { q with st := .up }) else d
    else d)

/-- The payload of a TRAIN cell: station number, 0xFFFF for none, port side, station type, port UP (R227, R236; layout log 20). -/
def trainBody (d : Device) (s : Side) : List Byte :=
  leBytes 2 1 ++ leBytes 2 (if d.ring.numbered then (ownNumber d).toNat else 0xFFFF) ++ leBytes 1 (decide (s = .west)).toNat ++ leBytes 1 0
    ++ leBytes 1 (decide ((port d (sidePort s)).st = .up)).toNat

/-- A TRAIN cell of a ring side, while it trains or, trained, is still wrapped (R227, R236). -/
def sendTrain (d : Device) (s : Side) : Device :=
  let p := port d (sidePort s)
  if (p.st = .training ∧ p.phiDone = true) ∨ (p.st = .up ∧ wrapped d s = true) then
    let (c, d) := newCell d 19 0 0 (trainBody d s)
    putLane d s c
  else d

/-- TRAIN_SEND (R227): the mirror lane trains without TRAIN cells (R215). -/
def execTrainSend (p : Port) (s : State) : Host.Outcome State Fault Refusal :=
  latAct s (fun d => match p with
    | .east => sendTrain d .east
    | .west => sendTrain d .west
    | .mirror => d)

/-- TRAIN (R29, R227 step 4, R231, R236): it breaks a run of SPAN_DOWN; two cells of the opposite side accept the neighbour; one of the same side makes the port
MISWIRED and the span failed; on a wrapped side that is UP, two that report the neighbour UP unwrap it. -/
def execTrain (at_ : Side) (station : BitVec 10) (opposite nbrUp : Bool) (s : State) : Host.Outcome State Fault Refusal :=
  latAct s (fun d =>
    let p := port d (sidePort at_)
    if p.blockLock = false then d else
    let d := onPort d (sidePort at_) (fun q => { q with spanDowns := 0, spanDownRx := false })
    if p.st = .training ∧ p.phiDone = true then
      if opposite then
        onPort d (sidePort at_) (fun q => { q with
          nbr := station, trains := if q.trains = 0 then 1 else 2, nbrValid := decide (q.trains ≠ 0) })
      else
        let d := onPort d (sidePort at_) (fun q => { q with st := .miswired, nbr := station, nbrValid := false })
        wrapFailed d at_
    else if p.st = .up ∧ wrapped d at_ = true then
      if !nbrUp then d
      else if p.unwraps = 0 then onPort d (sidePort at_) (fun q => { q with unwraps := 1 })
      else unwrapSide (onPort d (sidePort at_) (fun q => { q with unwraps := 0 })) at_
    else d)

/-- TOPO_SEND (R230, R234): every second, once the station has joined or stands in COLLISION. -/
def execTopoSend (s : State) : Host.Outcome State Fault Refusal :=
  latAct s (fun d => if d.ring.join = .joined ∨ d.ring.join = .collision then sendTopo d else d)

/-- An arriving cell of this station's own number is stripped, unless it has been wrapped an odd number of times or the
station is in COLLISION (R225, R230). -/
def stripsOwn (d : Device) (c : RCell) : Bool :=
  decide (c.src = d.ring.station) && !c.wrapOdd && decide (d.ring.join ≠ .off) && decide (d.ring.join ≠ .training)
    && decide (d.ring.join ≠ .collision)

/-- The cell carries this station's own number as its source. -/
def ownCell (d : Device) (c : RCell) : Bool :=
  decide (c.src = d.ring.station) && decide (d.ring.join ≠ .off) && decide (d.ring.join ≠ .training)

/-- A TOPO that has passed the checks of arrival (R225, R229, R234); a member that waits for its partner in the map goes on
(R290). -/
def topoArrived (d : Device) (at_ : Side) (c : RCell) : Device :=
  if ownCell d c then
    let strip := stripsOwn d c
    let d := tokenCheck d c
    if strip then d else forward d at_ c
  else formStep (forward (learnTopo d at_ c) at_ c)

/-- MAP_AGEING (R234): an entry not refreshed by TOPO for 3 s is removed; whatever a failure left to learn is learnt then (log 113). -/
def execMapAgeing (station : BitVec 10) (s : State) : Host.Outcome State Fault Refusal :=
  latAct s (fun d =>
    if 3000 * msTicks ≤ (d.tim.raw - (mapOf d station).fresh).toNat then refSelect (topologyLearnt (onMap d station (fun _ => {}))) else d)

/-- The module pages of a lane changed. -/
def onSfp (d : Device) (p : Port) (f : Sfp → Sfp) : Device :=
  { d with ring := { d.ring with sfp := d.ring.sfp.set (portIdx p) (f d.ring.sfp[portIdx p]) } }

/-- LINK_FAILURE (R231, R232); with the module gone its copied pages are no longer current (R252). -/
def execLinkFailure (p : Port) (cause : LinkCause) (s : State) : Host.Outcome State Fault Refusal :=
  latAct s (fun d =>
    let d := if cause = .modAbs then onSfp d p (fun m => { m with a0Valid := false, a2Valid := false }) else d
    if (port d p).st = .down then onPort d p (causeShows cause) else linkFail d p (causeShows cause))

/-- SPAN_DOWN (R29, R231): the third in succession is a link failure. -/
def execSpanDown (at_ : Side) (s : State) : Host.Outcome State Fault Refusal :=
  latAct s (fun d =>
    let p := sidePort at_
    if (port d p).blockLock = false then d else
    let n := (port d p).spanDowns
    let d := onPort d p (fun q => { q with spanDowns := if n = 3 then 3 else n + 1, spanDownRx := true })
    if n = 2 ∧ (port d p).st ≠ .down then linkFail d p id else d)

/-- PARTIAL_CELL_DISCARD (R29, R221). -/
def execPartialCellDiscard (p : Port) (s : State) : Host.Outcome State Fault Refusal :=
  latAct s (fun d => if (port d p).blockLock then onPort d p (fun q => { q with framing := cntUp q.framing }) else d)

/-- SFP_INSERT (R217, R227): the 96 bytes of A0h are copied, fewer are a failed transfer; the port begins to train. -/
def execSfpInsert (p : Port) (a0 : List Byte) (s : State) : Host.Outcome State Fault Refusal :=
  latAct s (fun d =>
    let d := onPort d p (fun q => { q with modAbs := false })
    let d := onSfp d p (fun m =>
      if a0.length = 96 then { m with a0 := a0, a0Valid := true, a2Valid := false }
      else { m with a0Valid := false, a2Valid := false, i2cErr := true })
    if mayTrain d p && decide ((port d p).st = .down) then startTraining d p else d)

/-- SFP_POLL (R217): the 12 bytes of A2h are copied, fewer are a failed transfer. -/
def execSfpPoll (p : Port) (a2 : List Byte) (s : State) : Host.Outcome State Fault Refusal :=
  latAct s (fun d =>
    if (port d p).modAbs then d
    else onSfp d p (fun m =>
      if a2.length = 12 then { m with a2 := a2, a2Valid := true, a2At := d.tim.raw } else { m with i2cErr := true }))

/-- LEASE_EXPIRY (R248): at the edge where the raw counter reaches the lease end; the shadow expires none (R289). -/
def execLeaseExpiry (i : LockNo) (s : State) : Host.Outcome State Fault Refusal :=
  latAct s (fun d => leaseDue d i)

end Sys2Proof.Machine
end

