-- ==== Sys2Proof/Machine/LaunchFamily.lean ====
section
/-! DEFINITION. The meanings of the launch-queue and journal commands (05_launch_queues.md, 06_journals.md). -/

namespace Sys2Proof.Machine

/-! ### Launch queue -/

/-- Word w of entry i written (R108): only to a FREE entry, else win_busy; the partner is sent the word (R284). -/
def windowPut (d : Device) (n : ChanNo) (i : LqIdx) (w : Nat) (v : Word) : Device :=
  if (lqEnt d n i).st = .free then lqPutWord d n i w v
  else onLq d n (fun q => { q with evt := setBit q.evt 0 })

/-- A write through the window that CHn_LQ_SEL names (R108). -/
def windowWrite (d : Device) (n : ChanNo) (w : Nat) (v : Word) : Device := windowPut d n (chan d n).lq.sel.toFin w v

/-- A host commit: the result is written to CHn_LQ_RESULT (R109). -/
def hostCommit (d : Device) (n : ChanNo) (i : LqIdx) : Device :=
  let (code, d) := commitEntry d n i
  onLq d n (fun q => { q with resIdx := BitVec.ofNat 7 i.val, resCode := BitVec.ofNat 4 code })

/-- A WAITING entry whose launch time is reached enters READY (R111). -/
def launchOp (d : Device) (n : ChanNo) (i : LqIdx) : Device :=
  let e := lqEnt d n i
  if decide (e.st = .waiting) && !e.closing && reached d.tim.raw (lqLaunch d n i) then enterReady d n i e else d

/-- LAUNCH_TIME_REACHED (R111). -/
def execLaunchTimeReached (n : ChanNo) (i : LqIdx) (s : State) : Host.Outcome State Fault Refusal :=
  latAct s (fun d => launchOp d n i)

/-- A cancel starts its crossing (R117, R118). -/
def startCancel (d : Device) (n : ChanNo) (i : Option LqIdx) : Device :=
  onLq d n (fun q => { q with cancels := q.cancels ++ [i] })

/-- LQ_CANCEL (R117). -/
def execLqCancel (n : ChanNo) (i : LqIdx) (s : State) : Host.Outcome State Fault Refusal :=
  latAct s (fun d => startCancel d n (some i))

/-- LQ_CANCEL_ALL (R118). -/
def execLqCancelAll (n : ChanNo) (s : State) : Host.Outcome State Fault Refusal :=
  latAct s (fun d => startCancel d n none)

/-- One entry at the applying edge; a cancel of ballot_index also ends the ballot (R117, R159, R160). -/
def applyOne (d : Device) (n : ChanNo) (i : LqIdx) : Device :=
  let d := cancelEntry d n i
  if i = ballotIdx d n then ballotEnd d n 5 else d

/-- The oldest cancel in its crossing is applied (R117, R118). -/
def applyCancel (d : Device) (n : ChanNo) : Device :=
  match (chan d n).lq.cancels with
  | [] => d
  | c :: rest =>
    let d := onLq d n (fun q => { q with cancels := rest })
    match c with
    | some i => applyOne d n i
    | none => lqAll.foldl (fun d i => applyOne d n i) d

/-- CANCEL_APPLY (R117). -/
def execCancelApply (n : ChanNo) (s : State) : Host.Outcome State Fault Refusal := latAct s (fun d => applyCancel d n)

/-! ### Journal -/

/-- Payload word k of the frame in progress: of an own frame the word as sent, else the word received (R130). -/
def sentWord (fe : FrameEngine) (k : Nat) (w : Word) : Word :=
  match fe.txFrame with
  | some f => (wordsOf (fitTo (frameLen f) f.data)).getD k 0
  | none => w

/-- JOURNAL_WORD_STAGED (R136, R272): the header burst after the DLC field, or one payload word; the entry's last word is
staged when the frame is valid. A received frame without data keeps its word 3 for then. -/
def stagePiece (d : Device) (n : ChanNo) (p : Piece) : Device :=
  let fe := (chan d n).fe
  let j := (chan d n).jn
  if decide (fe.activity = .none) || decide (modeOf d n = .idle) || !journalOn d n then d
  else match p with
  | .head f =>
    if j.frameWords ≠ 0 then d
    else
      let tx := decide (fe.activity = .transmitting)
      let hdr := frameHeader fe.stamp fe.gen tx.toNat (fe.txFrame.getD f)
      let ws := if !tx && decide (frameLen f = 0) then hdr.take 3 else hdr
      let total := 4 + (frameLen (fe.txFrame.getD f) + 3) / 4 + tx.toNat
      onJn (stage d n (.tent ws fe.gen) ws.length) n (fun j => { j with frameWords := ws.length, frameTotal := total })
  | .data w =>
    if j.frameWords < 4 ∨ j.frameTotal ≤ j.frameWords + 1 then d
    else onJn (stage d n (.tent [sentWord fe (j.frameWords - 4) w] fe.gen) 1) n (fun j => { j with frameWords := j.frameWords + 1 })

/-- JOURNAL_WORD_STAGED (R272). -/
def execJournalWordStaged (n : ChanNo) (p : Piece) (s : State) : Host.Outcome State Fault Refusal :=
  latAct s (fun d => stagePiece d n p)

/-- JOURNAL_WRITE (R136, R143 to R148). -/
def execJournalWrite (n : ChanNo) (s : State) : Host.Outcome State Fault Refusal := latAct s (fun d => writeStaged d n)

/-- A read of the low half of CHn_JREAD or of a CHn_JWIN pair: the word is answered and the tags are latched (R5, R137). -/
def readPop (d : Device) (n : ChanNo) : Word × Device :=
  let ((w, tags), d) := popWord d n
  (w, latchHi d (chanOff n 0x400) (tags.setWidth 32))

/-- A read through CHn_JWIN (R139): the words with their tags, the last tags latched. -/
def windowRead (d : Device) (n : ChanNo) (count : Nat) : Device :=
  let (ps, d) := popMany d n count
  let d := { d with glb := { d.glb with rwin := ps } }
  match ps.getLast? with
  | some p => latchHi d (chanOff n 0x400) (p.2.setWidth 32)
  | none => d

/-- SET_MARK (R146). -/
def execSetMark (n : ChanNo) (s : State) : Host.Outcome State Fault Refusal := latAct s (fun d => setMarkOp d n)

/-- REWIND (R146). -/
def execRewind (n : ChanNo) (s : State) : Host.Outcome State Fault Refusal := latAct s (fun d => rewindOp d n)

/-- CLEAR_MARK (R146). -/
def execClearMark (n : ChanNo) (s : State) : Host.Outcome State Fault Refusal := latAct s (fun d => clearMarkOp d n)

/-- FLUSH (R149). -/
def execFlush (n : ChanNo) (s : State) : Host.Outcome State Fault Refusal := latAct s (fun d => flushOp d n)

end Sys2Proof.Machine
end

