-- ==== Sys2Proof/Machine/Operands.lean ====
section
/-! DEFINITION. The instruction words of a micro-engine: the four formats, the fields an instruction uses, the immediates
and the operand ranges (13_engine_isa.md, R328 to R332). -/

namespace Sys2Proof.Machine

/-- Format R (R328): low holds [3:0] n - 1 of RPOST, else 0. -/
def encR (op : Nat) (rd ra rb rc : GReg) (low : Nat) : Word :=
  pack [(26, op), (22, rd.val), (18, ra.val), (14, rb.val), (10, rc.val), (0, low)]

/-- Format I (R328). -/
def encI (op : Nat) (rd ra : GReg) (imm : Nat) : Word := pack [(26, op), (22, rd.val), (18, ra.val), (0, imm)]

/-- Format U (R328). -/
def encU (op : Nat) (rd : GReg) (imm : BitVec 16) : Word := pack [(26, op), (22, rd.val), (0, imm.toNat)]

/-- Format B (R328): ra stands in [25:22], rb in [21:18]. -/
def encB (op : Nat) (ra rb : GReg) (imm : BitVec 8) (target : BitVec 10) : Word :=
  pack [(26, op), (22, ra.val), (18, rb.val), (10, imm.toNat), (0, target.toNat)]

/-- The opcode of a word. -/
def opOf (w : Word) : Nat := fld w 26 6

/-- The register named in [25:22]. -/
def regD (w : Word) : GReg := ⟨fld w 22 4, Nat.mod_lt _ (by decide)⟩

/-- The register named in [21:18]. -/
def regA (w : Word) : GReg := ⟨fld w 18 4, Nat.mod_lt _ (by decide)⟩

/-- The bits an opcode uses, none where R332 marks it reserved (R329, R332). -/
def usedBits (op : Nat) : Option Word :=
  if 0x01 ≤ op ∧ op ≤ 0x08 then some 0xFFFFC000#32
  else if 0x09 ≤ op ∧ op ≤ 0x0C then some 0xFFFFFFFF#32
  else if 0x0D ≤ op ∧ op ≤ 0x0F then some 0xFFFC001F#32
  else if op = 0x10 ∨ op = 0x11 then some 0xFFC0FFFF#32
  else if op = 0x12 then some 0xFFFC03FF#32
  else if 0x14 ≤ op ∧ op ≤ 0x19 then some 0xFFFC03FF#32
  else if op = 0x1A ∨ op = 0x1B then some 0xFFC3FFFF#32
  else if op = 0x1C ∨ op = 0x1D then some 0xFC0003FF#32
  else if op = 0x1E then some 0xFFC00000#32
  else if 0x20 ≤ op ∧ op ≤ 0x23 then some 0xFFFFFFFF#32
  else if op = 0x28 then some 0xFC3C000F#32
  else if op = 0x29 then some 0xFFC0000F#32
  else if op = 0x2A then some 0xFFFC000F#32
  else if op = 0x2C then some 0xFFFC0000#32
  else if op = 0x2D then some 0xFFC00000#32
  else if op = 0x2E then some 0xFC03FFFF#32
  else if op = 0x30 then some 0xFFFC001F#32
  else if op = 0x31 then some 0xFFFC0000#32
  else if op = 0x32 then some 0xFC3C0000#32
  else if op = 0x34 then some 0xFFC00000#32
  else if op = 0x35 then some 0xFFFFFC00#32
  else if op = 0x36 then some 0xFC3FFFFF#32
  else if op = 0x37 then some 0xFC03FFFF#32
  else if op = 0x38 then some 0xFC3FFC0F#32
  else if op = 0x39 ∨ op = 0x3A then some 0xFC000000#32
  else none

/-- The operands of a word lie in the ranges stated for them: register pairs begin even, LQW names a word up to 23, RPOST up to
14 words (R329, R335, R336, R337, R339). -/
def rangesOk (w : Word) : Bool :=
  let op := opOf w
  if op = 0x34 then decide (fld w 22 1 = 0)
  else if op = 0x35 then decide (fld w 22 1 = 0) && decide (fld w 18 1 = 0)
  else if op = 0x30 then decide (fld w 0 5 ≤ 23)
  else if op = 0x38 then decide (fld w 0 4 ≤ 13)
  else true

/-- The word is no encoding of R329. -/
def legalWord (w : Word) : Bool :=
  match usedBits (opOf w) with
  | none => false
  | some m => decide (w &&& ~~~ m = 0) && rangesOk w

/-- imm18 sign-extended (R330). -/
def sext18 (i : BitVec 18) : Word := i.signExtend 32

/-- imm18 zero-extended (R330). -/
def zext18 (i : BitVec 18) : Word := i.setWidth 32

/-- A shift amount from a register: the bits above [4:0] are ignored (R330). -/
def shiftOf (v : Word) : Nat := v.toNat % 32

/-- EXT (R332): len bits from pos up, bits beyond 31 read 0. -/
def extract (v : Word) (pos len : Nat) : Word := BitVec.ofNat 32 (v.toNat / 2 ^ pos % 2 ^ len)

/-- A scratch address (R332). -/
def scrAddr (v : Word) : Nat := v.toNat % 16384

/-- The byte offset of an SRAM word address (R333). -/
def memAddr (v : Word) : Nat := v.toNat % 4194304 * 4

end Sys2Proof.Machine
end

