-- ==== Sys2Proof/Machine/PinOps.lean ====
section
/-! DEFINITION. Pin cells: their settings, joined queues, and the ends of the queues (R315 to R324). -/

namespace Sys2Proof.Machine

/-- Pin cell p. -/
def pinAt (d : Device) (p : PinNo) : PinCell := d.pin[p]

/-- mode of a cell (R317). -/
def pinMode (c : PinCell) : Nat := c.cfg.toNat % 8

/-- lsb_first. -/
def pinLsb (c : PinCell) : Bool := c.cfg.getLsbD 3

/-- idle_level. -/
def pinIdle (c : PinCell) : Bool := c.cfg.getLsbD 4

/-- clk_cell: the cell of the same engine that clocks RX_SYNC and CLOCK (R317, R327). -/
def pinClk (c : PinCell) : Nat := c.cfg.toNat / 65536 % 16

/-- open_drain. -/
def pinOpenDrain (c : PinCell) : Bool := c.cfg.getLsbD 15

/-- edge_sel. -/
def pinEdgeSel (c : PinCell) : Nat := c.cfg.toNat / 128 % 4

/-- cont. -/
def pinCont (c : PinCell) : Bool := c.cfg.getLsbD 9

/-- word_len, where 0 means 32 (R327). -/
def pinLen (c : PinCell) : Nat := if c.cfg.toNat / 1024 % 32 = 0 then 32 else c.cfg.toNat / 1024 % 32

/-- The cells of the group a cell's join names (R324, R327). -/
def pinGroup (c : PinCell) : Nat := 2 ^ (c.cfg.toNat / 1048576 % 4)

/-- The words a cell's queues take: 4 for each cell of its group (R315, R324). -/
def pinCap (c : PinCell) : Nat := 4 * pinGroup c

/-- Cell b of the device, by number. -/
def pinNo (b : Nat) : PinNo := ⟨b % 128, Nat.mod_lt _ (by decide)⟩

/-- Cell p is absorbed: a group of 2, 4 or 8 with a lower base holds it (R324). -/
def absorbed (d : Device) (p : PinNo) : Bool :=
  [2, 4, 8].any (fun g => decide (p.val % g ≠ 0) && decide (g ≤ pinGroup (pinAt d (pinNo (p.val - p.val % g)))))

/-- The binding of a context covers cell p: PINS, base and count (R309, R326). -/
def bindsCell (k : EngNo) (x : Ctx) (p : PinNo) : Bool :=
  decide (fld x.cfg 10 2 = 1) && decide (engOf p = k) && decide (fld x.cfg 12 6 ≤ p.val % 16)
    && decide (p.val % 16 < fld x.cfg 12 6 + fld x.cfg 18 4 + 1)

/-- A context of its engine binds cell p (R309, R313). -/
def bound (d : Device) (p : PinNo) : Bool := d.eng[engOf p].ctx.toList.any (fun x => bindsCell (engOf p) x p)

/-- Cell p runs: a bound cell runs with its engine and holds its idle level else (R313; log 30). -/
def pinRuns (d : Device) (p : PinNo) : Bool := !bound d p || decide (d.eng[engOf p].st = .run)

/-- Cell p may finish the bit in progress: it runs, or its engine is stopping (R313). -/
def pinFinishes (d : Device) (p : PinNo) : Bool := pinRuns d p || decide (d.eng[engOf p].st = .stopping)

/-- The cell that clk_cell of cell p names, of the same engine (R317). -/
def clkOf (d : Device) (p : PinNo) : PinNo := pinNo (p.val / 16 * 16 + pinClk (pinAt d p))

/-- The level a cell drives while it shifts nothing, none where its pin is an input (R317). A bound cell whose engine does not run
holds its idle level (R313, R327). -/
def pinRest (d : Device) (p : PinNo) : Option Bool :=
  let c := pinAt d p
  if pinMode c = 1 then (if c.out.getLsbD 1 then some (if pinRuns d p then c.out.getLsbD 0 else pinIdle c) else none)
  else if pinMode c = 2 ∨ pinMode c = 6 then some (pinIdle c)
  else none

/-- Bit i, counted as it is shifted, of a word (R317): lsb_first shifts bit 0 first. -/
def shiftedBit (c : PinCell) (w : Word) (i : Nat) : Bool := if pinLsb c then w.getLsbD i else w.getLsbD (pinLen c - 1 - i)

/-- The level a cell drives at a tick, 0 to 3, of bit i of the word being shifted (R316, R317): TX_SYNC its word; CLOCK the level
opposite to idle_level from tick 2 on while cell clk_cell shifts. A bound CLOCK cell clocks until it has stopped (R313). -/
def pinLevel (d : Device) (p : PinNo) (i tick : Nat) : Option Bool :=
  let c := pinAt d p
  if pinMode c = 2 ∧ c.busy = true then some (shiftedBit c c.shifter i)
  else if pinMode c = 6 ∧ pinFinishes d p = true ∧ pinMode (pinAt d (clkOf d p)) = 2 ∧ (pinAt d (clkOf d p)).busy = true then
    some (pinIdle c != decide (2 ≤ tick))
  else pinRest d p

/-- Pin p is of bank B and VIO_B is too low: its output is high-impedance and its input reads 0 (R315, R444). -/
def pinDead (d : Device) (p : PinNo) : Bool := d.glb.vioBLow && decide (64 ≤ p.val)

/-- What the pin is driven to: with open_drain a cell drives low only (R327), and nothing while VIO_B is low (R444). -/
def pinDriven (d : Device) (p : PinNo) (i tick : Nat) : Option Bool :=
  match (if pinDead d p then none else pinLevel d p i tick) with
  | some true => if pinOpenDrain (pinAt d p) then none else some true
  | x => x

/-- A change of level matches a cell's edge_sel (R317 to R319, R327). -/
def edgeSelects (c : PinCell) (before after : Bool) : Bool :=
  decide (after ≠ before) && (decide (pinEdgeSel c = 2) || decide (pinEdgeSel c = 0) && after || decide (pinEdgeSel c = 1) && !after)

/-- An edge of a cell's own pin to a new level matches its edge_sel. -/
def edgeMatches (c : PinCell) (level : Bool) : Bool := edgeSelects c c.level level

/-- A word enters the RX queue; with the queue full it is discarded and rx_over is set (R320, R322). -/
def rxPush (c : PinCell) (w : Word) : PinCell :=
  if c.rxq.length < pinCap c then { c with rxq := c.rxq ++ [w] } else { c with evt := setBit c.evt 1 }

/-- The queue head is loaded into the shifter (R320). -/
def txLoad (c : PinCell) : PinCell :=
  match c.txq with
  | w :: r => { c with txq := r, shifter := w, bits := 0, busy := true }
  | [] => c

/-- A word of len bits, right-aligned (R317). -/
def rightAligned (w : Word) (len : Nat) : Word := BitVec.ofNat 32 (w.toNat % 2 ^ len)

/-- The word of a whole run of samples, sample i in bit i, as lsb_first orders it and right-aligned (R317). -/
def arranged (c : PinCell) (w : Word) : Word :=
  if pinLsb c then rightAligned w (pinLen c)
  else BitVec.ofNat 32 ((List.range (pinLen c)).foldl (fun a i => 2 * a + (w.getLsbD i).toNat) 0)

/-- RX_SYNC samples its pin (R317): the bit joins the word being received, and a complete word is pushed. -/
def sampleBit (c : PinCell) (level : Bool) : PinCell :=
  let n := c.bits.toNat
  let old := if n = 0 then 0 else c.shifter.toNat
  let w := BitVec.ofNat 32 (if pinLsb c then old + level.toNat * 2 ^ n else 2 * old + level.toNat)
  if n + 1 < pinLen c then { c with shifter := w, bits := c.bits + 1, busy := true }
  else rxPush { c with shifter := w, bits := 0, busy := false } w

/-- RX_SYNC cell q has a bit to sample: it runs, or its engine stops while the next bit of a word is in progress, which it finishes (R313). -/
def bitToSample (d : Device) (q : PinNo) : Bool :=
  pinRuns d q || (pinFinishes d q && decide ((pinAt d q).bits ≠ 0) && !(pinAt d q).finished)

/-- Cell q samples at an edge of cell p's pin to a new level (R313, R317). -/
def samplesAt (d : Device) (p : PinNo) (level : Bool) (q : PinNo) : Bool :=
  decide (pinMode (pinAt d q) = 3) && bitToSample d q && !absorbed d q && decide (clkOf d q = p)
    && edgeSelects (pinAt d q) (pinAt d p).level level

/-- The level at pin p's input (R444). -/
def inLevel (d : Device) (p : PinNo) (level : Bool) : Bool := level && !pinDead d p

/-- The pin of a cell is sampled at a level (R317, R319, R444): in EDGE mode a matching change pushes the level and the raw counter's
low 31 bits, and every RX_SYNC cell that the pin clocks samples its own pin. -/
def pinEdge (d : Device) (p : PinNo) (level : Bool) : Device :=
  let c := pinAt d p
  let level := inLevel d p level
  let clocked := (List.finRange 128).filter (samplesAt d p level)
  let stamp := pack [(0, d.tim.raw.toNat % 2 ^ 31), (31, level.toNat)]
  let d' := onPin d p (fun c => { c with level := level })
  let d' := if decide (pinMode c = 5) && pinRuns d p && !absorbed d p && edgeMatches c level then onPin d' p (fun c => rxPush c stamp)
    else d'
  clocked.foldl (fun d q => onPin d q (fun c => { sampleBit c (inLevel d q c.level) with finished := !pinRuns d q })) d'

/-- A start edge in RX_ASYNC (R318): the divider restarts and the sampling of a word begins; an edge before the last sample is
ignored. -/
def pinAsyncStart (d : Device) (p : PinNo) (level : Bool) : Device :=
  let c := pinAt d p
  let d' := pinEdge d p level
  if decide (pinMode c = 4) && pinRuns d p && !absorbed d p && !c.busy && edgeMatches c (inLevel d p level) then
    onPin d' p (fun c => { c with busy := true, bits := 0, shifter := 0 })
  else d'

/-- VIO_B falls too low (R444): every input of bank B reads 0 from there on, and a pin that read 1 changes its level. -/
def bankBLow (d : Device) : Device :=
  let d := { d with glb := { d.glb with vioBLow := true } }
  ((List.finRange 128).filter (fun p => pinDead d p && (pinAt d p).level)).foldl
    (fun d p => if d.glb.latUp then pinAsyncStart d p false else onPin d p (fun c => { c with level := false })) d

/-- A host push (R323, R324). -/
def hostPush (d : Device) (p : PinNo) (w : Word) : Device :=
  let full := absorbed d p || decide (pinCap (pinAt d p) ≤ (pinAt d p).txq.length)
  onPin d p (fun c => if full then { c with evt := setBit c.evt 2 } else { c with txq := c.txq ++ [w] })

/-- The offset of a register of cell p (R327). -/
def pinOff (p : PinNo) (r : Nat) : Nat := 0x800000 + (engOf p).val * 0x10000 + 0x3000 + p.val % 16 * 0x80 + r

/-- A host pop: the low half is answered, valid latched into the high half (R323, R324). -/
def hostPop (d : Device) (p : PinNo) : Word × Device :=
  match (if absorbed d p then [] else (pinAt d p).rxq) with
  | w :: r => (w, latchHi (onPin d p (fun c => { c with rxq := r })) (pinOff p 0x18) 1)
  | [] => (0, latchHi d (pinOff p 0x18) 0)

/-- The bits of a transmitted word not yet driven, in shifter order (R313; log 31). -/
def txRemains (c : PinCell) (bits : Nat) : Word :=
  if pinLsb c then BitVec.ofNat 32 (c.shifter.toNat % 2 ^ pinLen c / 2 ^ bits)
  else BitVec.ofNat 32 (c.shifter.toNat * 2 ^ bits % 2 ^ pinLen c)

/-- The bits of a received word sampled so far, as they stand in a complete word (R313). -/
def rxSampled (c : PinCell) (bits : Nat) (w : Word) : Word :=
  if pinLsb c then rightAligned w bits
  else BitVec.ofNat 32 (w.toNat % 2 ^ pinLen c / 2 ^ (pinLen c - bits) * 2 ^ (pinLen c - bits))

/-- The bits and the word received so far, as samples stand in a complete word: those the cell itself has sampled in RX_SYNC. -/
def ownPart (c : PinCell) : Word := if pinLsb c then c.shifter else BitVec.ofNat 32 (c.shifter.toNat * 2 ^ (pinLen c - c.bits.toNat))

/-- A bound cell stops (R313): partway through a word it writes its shadow; it shifts no more. What an RX_SYNC cell has sampled at the
edges of its clock it holds itself, unless the row names more; the rest the row names (log 118). -/
def pinStop (c : PinCell) (x : Option PinStop) : PinCell :=
  let c' := { c with busy := false, bits := 0, finished := false }
  let own := decide (c.bits ≠ 0) && x.all (fun x => decide (x.bits ≤ c.bits) || decide (pinLen c ≤ x.bits.toNat))
  if pinMode c = 3 ∧ own = true then
    { c' with shWord := rxSampled c c.bits.toNat (ownPart c), shBits := c.bits, shValid := true, shTx := false }
  else match x with
  | none => c'
  | some x =>
    let n := x.bits.toNat
    if n = 0 ∨ pinLen c ≤ n then c'
    else if pinMode c = 2 then
      if c.busy then { c' with shWord := txRemains c n, shBits := x.bits, shValid := true, shTx := true } else c'
    else if pinMode c = 3 ∨ (pinMode c = 4 ∧ c.busy = true) then
      { c' with shWord := rxSampled c n x.word, shBits := x.bits, shValid := true, shTx := false }
    else c'

end Sys2Proof.Machine
end

