-- ==== Sys2Proof/Machine/LineFamily.lean ====
section
/-! DEFINITION. The meanings of the lattice's timing commands, the line interface, the sentinels and the always-on domain
(02_lattice_timing.md, 03_line_interface.md, 16_power_start.md). -/

namespace Sys2Proof.Machine

/-- TEMPO_MEASUREMENT (R22 to R25): LAT_TEMPO, its peak, and slow_seen above 1 508 ps. -/
def execTempoMeasurement (ps : BitVec 16) (s : State) : Host.Outcome State Fault Refusal :=
  latAct s (fun d => { d with lat := { d.lat with
    tempo := ps, tempoValid := true, peak := if d.lat.peak < ps then ps else d.lat.peak
    slowSeen := d.lat.slowSeen || decide (1508 < ps.toNat) } })

/-- PEAK_CLEAR (R25). -/
def execPeakClear (s : State) : Host.Outcome State Fault Refusal :=
  latAct s (fun d => { d with lat := { d.lat with peak := 0 } })

/-- VCORE_ECON_ENTER (R40, R422). -/
def execVcoreEconEnter (s : State) : Host.Outcome State Fault Refusal :=
  latAct s (fun d => { d with lat := { d.lat with econ := true, econSeen := true } })

/-- VCORE_ECON_EXIT (R422). -/
def execVcoreEconExit (s : State) : Host.Outcome State Fault Refusal :=
  latAct s (fun d => { d with lat := { d.lat with econ := false } })

/-- LINE_REQ_OFF (R43 to R45). -/
def execLineReqOff (n : ChanNo) (s : State) : Host.Outcome State Fault Refusal :=
  latAct s (fun d => lineRequest d n .off)

/-- LINE_REQ_SLEEP (R43 to R46). -/
def execLineReqSleep (n : ChanNo) (s : State) : Host.Outcome State Fault Refusal :=
  latAct s (fun d => lineRequest d n .sleep)

/-- LINE_REQ_NORMAL (R43 to R45, R50, R54). -/
def execLineReqNormal (n : ChanNo) (s : State) : Host.Outcome State Fault Refusal :=
  latAct s (fun d => lineRequest d n .normal)

/-- LINE_REQ_LISTEN (R43 to R45, R54). -/
def execLineReqListen (n : ChanNo) (s : State) : Host.Outcome State Fault Refusal :=
  latAct s (fun d => lineRequest d n .listen)

/-- TERM_EN_WRITE (R58, R59). -/
def execTermEnWrite (n : ChanNo) (v : Bool) (s : State) : Host.Outcome State Fault Refusal :=
  latAct s (fun d => termWrite d n v)

/-- LOCAL_WAKE_EN_WRITE (R64, R70). -/
def execLocalWakeEnWrite (n : ChanNo) (v : Bool) (s : State) : Host.Outcome State Fault Refusal :=
  latAct s (fun d => localWakeWrite d n v)

/-- The completion of a line-state transition (R48, R63). -/
def lineComplete (d : Device) (n : ChanNo) : Device :=
  let l := (chan d n).line
  if l.moving then
    let d := onLine d n (fun l => { l with
      moving := false, rxReady := decide (l.state ≠ .off) && decide (l.state ≠ .sleep) })
    inhCheck d (dieOf n)
  else d

/-- LINE_TRANSITION_COMPLETE (R48). -/
def execLineTransitionComplete (n : ChanNo) (s : State) : Host.Outcome State Fault Refusal :=
  vaonAct s (fun d => lineComplete d n)

/-- The armed recogniser sees a wake-up pattern (R177): wup_en and wake_mode PATTERN_AND_FRAME. -/
def wupOp (d : Device) (n : ChanNo) (tick : Nat) : Device :=
  let w := (chan d n).wake
  if mayWake d n tick && w.use.cfg.getLsbD 0 && !w.set.cfg.getLsbD 2 then wakeChannel d n 1 1 tick [] else d

/-- WUP_RECOGNISED (R177). -/
def execWupRecognised (n : ChanNo) (tick : Nat) (s : State) : Host.Outcome State Fault Refusal :=
  vaonAct s (fun d => wupOp d n tick)

/-- The data bytes of a frame as 64 bits, bit 8i + j being bit j of byte i (R188). -/
def dataBits (f : Frame) : BitVec 64 := BitVec.ofNat 64 (leAt (fitTo 8 f.data) 0 8)

/-- A data bit set in the frame is set in the mask, or the mask or the DLC in force is 0 (R178). -/
def wufData (w : WakeSet) (f : Frame) : Bool :=
  decide (w.dmask = 0) || decide (fld w.cfg 16 4 = 0) || decide (dataBits f &&& w.dmask ≠ 0)

/-- A frame is the wake frame in force (R178): classical, a data frame, of its IDE, identifier, DLC and data. -/
def wufMatch (w : WakeSet) (f : Frame) : Bool :=
  !f.fdf && !f.rtr && decide (f.ide = w.cfg.getLsbD 6) && decide ((f.ident ^^^ w.id) &&& w.idMask = 0)
    && decide (f.dlc.toNat = fld w.cfg 16 4) && wufData w f

/-- The armed decoder recognises a matching wake-up frame (R178, R184). -/
def wufOp (d : Device) (n : ChanNo) (tick : Nat) (f : Frame) : Device :=
  let w := (chan d n).wake
  if mayWake d n tick && w.use.cfg.getLsbD 1 && wufMatch w.use f
  then wakeChannel d n 2 2 tick [pack [(0, f.ident.toNat), (29, f.ide.toNat)]] else d

/-- WUF_RECOGNISED (R178). -/
def execWufRecognised (n : ChanNo) (tick : Nat) (f : Frame) (s : State) : Host.Outcome State Fault Refusal :=
  vaonAct s (fun d => wufOp d n tick f)

/-- The armed decoder's error counter stands at 32 (R179): source WUF_ERRCNT, LINE_STATE cause WUF. -/
def wufErrOp (d : Device) (n : ChanNo) (tick : Nat) : Device :=
  let w := (chan d n).wake
  if mayWake d n tick && w.use.cfg.getLsbD 1 && decide (w.errCnt = 32) then wakeChannel d n 3 2 tick [] else d

/-- WUF_ERRCNT (R179). -/
def execWufErrcnt (n : ChanNo) (tick : Nat) (s : State) : Host.Outcome State Fault Refusal :=
  vaonAct s (fun d => wufErrOp d n tick)

/-- WAKE_N is recognised once for each low period (R64): every sentinel requests INH and sets wake_n_seen, and every
sleeping channel with local_wake_en wakes. -/
def wakeNOp (d : Device) (tick : Nat) : Device :=
  if d.glb.wakeNLow then d
  else
    let ds := List.finRange 4
    let d := ds.foldl (fun d k => onSent (wakeSentinel d k) k (fun s => { s with wakeNSeen := true })) d
    let d := { d with glb := { d.glb with wakeNLow := true } }
    forChans d (List.finRange 64) (fun d n =>
      if (decide ((chan d n).line.state = .sleep) || lateWake d n tick) && (chan d n).line.localWake then wakeChannel d n 4 3 tick [] else d)

/-- WAKE_N_RECOGNISED (R64). -/
def execWakeNRecognised (tick : Nat) (s : State) : Host.Outcome State Fault Refusal :=
  vaonAct s (fun d => wakeNOp d tick)

/-- WAKE_N_RETURN_HIGH (R64). -/
def execWakeNReturnHigh (s : State) : Host.Outcome State Fault Refusal :=
  vaonAct s (fun d => { d with glb := { d.glb with wakeNLow := false } })

/-- t_CONFIRM expires in STANDBY (R45, R52, R185). -/
def confirmExpiry (d : Device) (n : ChanNo) : Device :=
  if (chan d n).line.state = .standby then
    let d := onLine d n (fun l => { l with evt := setBit l.evt 1 })
    let d := if journalOn d n then d else onWake d n (fun w => { w with offConfirm := true })
    lineMove d n .sleep .sleep 4
  else d

/-- T_CONFIRM_EXPIRY (R52). -/
def execTConfirmExpiry (n : ChanNo) (s : State) : Host.Outcome State Fault Refusal :=
  vaonAct s (fun d => confirmExpiry d n)

/-- t_ORPHAN acts on one channel in NORMAL or LISTEN (R53, R185). -/
def orphanChan (d : Device) (n : ChanNo) : Device :=
  let st := (chan d n).line.state
  if st = .normal ∨ st = .listen then
    let d := onLine d n (fun l => { l with evt := setBit l.evt 3 })
    let d := if journalOn d n then d else onWake d n (fun w => { w with offOrphan := true })
    onLine (lineMove d n .sleep .sleep 5) n (fun l => { l with token := false })
  else d

/-- T_ORPHAN_EXPIRY (R53). -/
def execTOrphanExpiry (k : DieNo) (s : State) : Host.Outcome State Fault Refusal :=
  vaonAct s (fun d => forChans (onSent d k (fun s => { s with hbOk := false })) (dieChans k) orphanChan)

/-- SENTINEL_HEARTBEAT (R53, R54): hb_ok is 1 and no channel changes state. In recovery mode no resident code runs and no heartbeat is
sent (R390). -/
def execSentinelHeartbeat (k : DieNo) (s : State) : Host.Outcome State Fault Refusal :=
  latAct s (fun d => if d.svc.recovery then d else onSent d k (fun s => { s with hbOk := true }))

/-- VLINE undervoltage acts on one channel (R45, R56). -/
def undervoltChan (d : Device) (n : ChanNo) : Device :=
  let st := (chan d n).line.state
  if st = .standby ∨ st = .normal ∨ st = .listen then
    lineMove (onLine d n (fun l => { l with evt := setBit l.evt 4 })) n .sleep .sleep 6
  else d

/-- VLINE_UNDERVOLTAGE (R56). -/
def execVlineUndervoltage (k : DieNo) (s : State) : Host.Outcome State Fault Refusal :=
  vaonAct s (fun d => forChans (onSent d k (fun s => { s with vlineOk := false })) (dieChans k) undervoltChan)

/-- VLINE_RESTORED (R56). -/
def execVlineRestored (k : DieNo) (s : State) : Host.Outcome State Fault Refusal :=
  vaonAct s (fun d => onSent d k (fun s => { s with vlineOk := true }))

/-- OVER_TEMPERATURE (R57). -/
def execOverTemperature (k : DieNo) (s : State) : Host.Outcome State Fault Refusal :=
  vaonAct s (fun d => forChans (onSent d k (fun s => { s with ot := true })) (dieChans k)
    (fun d n => onLine d n (fun l => { l with evt := setBit l.evt 5 })))

/-- OVER_TEMPERATURE_CLEAR (R57). -/
def execOverTemperatureClear (k : DieNo) (s : State) : Host.Outcome State Fault Refusal :=
  vaonAct s (fun d => onSent d k (fun s => { s with ot := false }))

/-- The driver has been dominant for t_DOM (R55, R132): only an open drive gate can be. -/
def dominantOp (d : Device) (n : ChanNo) : Device :=
  if drvOn d n then
    busState (onLine d n (fun l => { l with domHold := true, evt := setBit l.evt 0 })) n d.tim.raw d.tim.gen 2 0
  else d

/-- DOMINANT_TIMEOUT (R55). -/
def execDominantTimeout (n : ChanNo) (s : State) : Host.Outcome State Fault Refusal :=
  vaonAct s (fun d => dominantOp d n)

/-- DOM_HOLD_RELEASE (R55). -/
def execDomHoldRelease (n : ChanNo) (s : State) : Host.Outcome State Fault Refusal :=
  vaonAct s (fun d => onLine d n (fun l => { l with domHold := false }))

/-- A write of start in CHn_LINE_CAL (R68). -/
def lineCalStart (d : Device) (n : ChanNo) : Device :=
  let l := (chan d n).line
  if l.calBusy then d
  else if l.state = .off then onLine d n (fun l => { l with calBusy := true })
  else onLine d n (fun l => { l with evt := setBit l.evt 7 })

/-- LINE_CAL_START (R68). -/
def execLineCalStart (n : ChanNo) (s : State) : Host.Outcome State Fault Refusal :=
  latAct s (fun d => lineCalStart d n)

/-- LINE_CAL_DONE (R68). -/
def execLineCalDone (n : ChanNo) (result : BitVec 12) (s : State) : Host.Outcome State Fault Refusal :=
  latAct s (fun d => onLine d n (fun l =>
    if l.calBusy && decide (l.state = .off) then { l with calBusy := false, calValid := true, calResult := result } else l))

/-- Autonomous bias ends in SLEEP, 1.0 s after the last bus edge (R65). -/
def biasRelease (d : Device) (n : ChanNo) : Device :=
  if decide ((chan d n).line.state = .sleep) && (chan d n).wake.decoding then
    onLine (onWake d n (fun w => { w with decoding := false })) n (fun l => { l with bias := false })
  else d

/-- BIAS_RELEASE (R65). -/
def execBiasRelease (n : ChanNo) (s : State) : Host.Outcome State Fault Refusal :=
  vaonAct s (fun d => biasRelease d n)

/-- A bus edge at an armed sleeping channel (R42, R65). -/
def decodingOp (d : Device) (n : ChanNo) : Device :=
  if decide ((chan d n).line.state = .sleep) && (chan d n).wake.armed then
    onLine (onWake d n (fun w => { w with decoding := true })) n (fun l => { l with bias := true })
  else d

/-- DECODING_TRAFFIC (R65). -/
def execDecodingTraffic (n : ChanNo) (s : State) : Host.Outcome State Fault Refusal :=
  vaonAct s (fun d => decodingOp d n)

/-- The sentinel's part of a channel at its reset: OFF, no token, termination open, the recogniser's records gone, what
the lattice holds kept (R395, R416). -/
def sentinelReset (d : Device) (n : ChanNo) : Device :=
  let m0 := modeOf d n
  let d := onLine d n (fun l => { ({} : Line) with
    req := l.req, reqWritten := l.reqWritten, rxdly := l.rxdly, calBusy := l.calBusy, calValid := l.calValid
    calResult := l.calResult })
  let d := onWake d n (fun w => { ({} : Wake) with
    calTaps := w.calTaps, calValid := w.calValid, calBusy := w.calBusy, calRaw := w.calRaw })
  afterMode d n m0

/-- VAON falls below its threshold (R395, R444): the sentinels reset, drivers release, terminations open, INH falls. -/
def vaonAssert (d : Device) : Device :=
  let d := forChans d (List.finRange 64) sentinelReset
  { d with sent := Vector.replicate 4 { ({} : Sentinel) with inhReq := false }
           glb := { d.glb with vaonUp := false, stby := false, wakeNLow := false } }

/-- VAON_POR_ASSERT (R395, R444). -/
def execVaonPorAssert (s : State) : Host.Outcome State Fault Refusal := vaonAct s vaonAssert

/-- VAON's power-on reset releases (R395, R411): the sentinels start and request INH. -/
def vaonRelease (d : Device) : Device :=
  if d.glb.vaonUp then d
  else { d with sent := Vector.replicate 4 {}
                glb := { d.glb with vaonUp := true, stby := false, stbyAborted := false, rstCause := 1 } }

/-- VAON_POR_RELEASE (R395). -/
def execVaonPorRelease (s : State) : Host.Outcome State Fault Refusal := act s vaonRelease

/-- VIO_B_LOW (R444): bank B outputs go high-impedance and its inputs read 0; with the lattice die in reset no cell runs. -/
def execVioBLow (s : State) : Host.Outcome State Fault Refusal :=
  act s bankBLow

/-- VIO_B_RESTORED (R444). -/
def execVioBRestored (s : State) : Host.Outcome State Fault Refusal :=
  act s (fun d => { d with glb := { d.glb with vioBLow := false } })

end Sys2Proof.Machine
end

