-- ==== Sys2Proof/Machine/EngineOps.lean ====
section
/-! DEFINITION. The micro-engines: turns, stalls, faults, bindings, the memory port, and starting and stopping an engine
(12_micro_engines.md, 13_engine_isa.md). -/

namespace Sys2Proof.Machine

/-! ### Contexts -/

/-- Context c of engine k. -/
def ctxOf (d : Device) (k : EngNo) (c : CtxNo) : Ctx := d.eng[k].ctx[c]

/-- Context c of engine k changed. -/
def onCtx (d : Device) (k : EngNo) (c : CtxNo) (f : Ctx → Ctx) : Device :=
  onEng d k (fun e => { e with ctx := e.ctx.set c (f e.ctx[c]) })

/-- Register r of a context. -/
def greg (d : Device) (k : EngNo) (c : CtxNo) (r : GReg) : Word := (ctxOf d k c).g[r]

/-- A register written. -/
def setGreg (d : Device) (k : EngNo) (c : CtxNo) (r : GReg) (v : Word) : Device :=
  onCtx d k c (fun x => { x with g := x.g.set r v })

/-- The second register of a pair (R329). -/
def pairOdd (r : GReg) : GReg := r + 1

/-- The instruction at an address of the program store. -/
def progAt (e : Engine) (a : BitVec 10) : Word := tabGet (0 : Word) e.prog a.toNat

/-- The context whose turn is next: the first READY one after the last (R307). -/
def nextTurn (e : Engine) : Option CtxNo :=
  ((List.range 32).map (fun i => e.last + 1 + Fin.ofNat 32 i)).find? (fun c => decide (e.ctx[c].st = .ready))

/-- The instruction completes: pc goes on to an address and the context is READY (R306, R331). -/
def retireTo (d : Device) (k : EngNo) (c : CtxNo) (target : BitVec 10) : Device :=
  onCtx d k c (fun x => { x with pc := target, st := .ready, cause := 0, wait := .none })

/-- The instruction completes and pc advances by 1 modulo 1 024 (R331). -/
def retire (d : Device) (k : EngNo) (c : CtxNo) : Device := retireTo d k c ((ctxOf d k c).pc + 1)

/-- The context stalls and keeps pc (R308, R331). -/
def stall (d : Device) (k : EngNo) (c : CtxNo) (cause : BitVec 4) (w : CtxWait) : Device :=
  onCtx d k c (fun x => { x with st := .stalled, cause := cause, wait := w })

/-- A fault (R333): everything but the context's state stays. -/
def ctxFault (d : Device) (k : EngNo) (c : CtxNo) (cause : BitVec 4) : Device :=
  onEng (onCtx d k c (fun x => { x with st := .faulted, cause := cause, wait := .none })) k
    (fun e => { e with faultSeen := true })

/-- A turn of context c for the instruction w: the engine is in RUN, the rotation gives c the turn, and w stands at its pc. An
encoding of R329 faults with cause ILLEGAL (R307, R329). -/
def turn (d : Device) (k : EngNo) (c : CtxNo) (w : Word) (f : Device → Device) : Device :=
  let e := d.eng[k]
  if e.st = .run ∧ nextTurn e = some c ∧ progAt e (ctxOf d k c).pc = w then
    let d := onEng d k (fun e => { e with last := c })
    if legalWord w then f d else ctxFault d k c 9
  else d

/-- An instruction that only writes rd (R332). -/
def setAndRetire (d : Device) (k : EngNo) (c : CtxNo) (rd : GReg) (v : Word) : Device := retire (setGreg d k c rd v) k c

/-- A branch (R332). -/
def branch (d : Device) (k : EngNo) (c : CtxNo) (taken : Bool) (target : BitVec 10) : Device :=
  if taken then retireTo d k c target else retire d k c

/-! ### Bindings (R309, R332) -/

/-- The binding code of a context. -/
def bindOf (x : Ctx) : Nat := fld x.cfg 10 2

/-- The channel a context is bound to with bit b of its configuration set: 22 jrn, 23 lq. -/
def boundChan (d : Device) (k : EngNo) (c : CtxNo) (b : Nat) : Option ChanNo :=
  let x := ctxOf d k c
  if bindOf x = 2 ∧ x.cfg.getLsbD b = true then some ⟨fld x.cfg 12 6, Nat.mod_lt _ (by decide)⟩ else none

/-- The bound cell an instruction names, none where the binding does not allow it. -/
def boundCell (d : Device) (k : EngNo) (c : CtxNo) (cell : Nat) : Option PinNo :=
  let p := pinNo (16 * k.val + cell % 16)
  if bindsCell k (ctxOf d k c) p && !absorbed d p then some p else none

/-- An instruction for a bound channel, else UNBOUND. -/
def withChan (d : Device) (k : EngNo) (c : CtxNo) (b : Nat) (f : ChanNo → Device) : Device :=
  match boundChan d k c b with
  | some n => f n
  | none => ctxFault d k c 0xA

/-- An instruction for a bound pin cell, else UNBOUND. -/
def withCell (d : Device) (k : EngNo) (c : CtxNo) (cell : Nat) (f : PinNo → Device) : Device :=
  match boundCell d k c cell with
  | some p => f p
  | none => ctxFault d k c 0xA

/-- A context's push to a TX queue that has room. -/
def pushCell (d : Device) (p : PinNo) (w : Word) : Device := onPin d p (fun c => { c with txq := c.txq ++ [w] })

/-- A context's pop of an RX queue, none when it is empty. -/
def popCell (d : Device) (p : PinNo) : Option (Word × Device) :=
  match (pinAt d p).rxq with
  | w :: r => some (w, onPin d p (fun c => { c with rxq := r }))
  | [] => none

/-! ### Scratch (R305, R420) -/

/-- A scratch word read under its check bits. -/
def scrRead (d : Device) (k : EngNo) (a : Nat) : Word × Device :=
  let e := d.eng[k]
  let x := (tabGet (0 : BitVec 39) e.flips a).setWidth 40
  let r := checkWord (tabGet (0 : Word) e.scratch a) false x d.glb.free
  let d := if 2 < ones x then (takeFree d).2 else d
  (r.word, eccCount d r)

/-- A scratch word written; its check bits then agree. -/
def scrWrite (d : Device) (k : EngNo) (a : Nat) (v : Word) : Device :=
  onEng d k (fun e => { e with
    scratch := tabSet (0 : Word) e.scratch a v, flips := tabSet (0 : BitVec 39) e.flips a 0 })

/-- n scratch words from an address upward. -/
def scrMany (d : Device) (k : EngNo) (a n : Nat) : List Word × Device :=
  match n with
  | 0 => ([], d)
  | m + 1 =>
    let (w, d) := scrRead d k (a % 16384)
    let (ws, d) := scrMany d k (a + 1) m
    (w :: ws, d)

/-! ### The memory port (R308, R310, R333) -/

/-- The SRAM offset that the data phase of the instruction at a context's pc goes to, none where it needs no bank; TXQ and TXC take the grant of
the bank of their entry (R256, R332 to R335). -/
def portAddr (d : Device) (k : EngNo) (c : CtxNo) : Option Nat :=
  let w := progAt d.eng[k] (ctxOf d k c).pc
  let a := greg d k c (regA w)
  let op := opOf w
  if op = 0x22 ∨ op = 0x23 then some (memAddr (a + sext18 (BitVec.ofNat 18 (fld w 0 18))))
  else if op = 0x2C then (boundChan d k c 22).map (fun n => jPlace (chan d n).jn (chan d n).jn.rd)
  else if op = 0x30 then (boundChan d k c 23).map (fun n => lqPlace d n ⟨fld a 0 7, Nat.mod_lt _ (by decide)⟩ (fld w 0 5))
  else if op = 0x31 ∨ op = 0x32 then (boundChan d k c 23).map (fun n => lqPlace d n ⟨fld a 0 7, Nat.mod_lt _ (by decide)⟩ 0)
  else none

/-- The memory port of engine k as requester: every context's requests are the engine's (R310). -/
def portReq (k : EngNo) : Requester := (qEng k, .whole)

/-- A requester granted bank r still needs it (R257, R313): work of it waits for r, a journal writer has words staged for it, a queue an entry
on offer there, or an engine's port waits for it. -/
def needsBank (d : Device) (r : ResNo) (x : Requester) : Bool :=
  waitsFor d x r
    || if h : x.1.val < 64 then
      let n : ChanNo := ⟨x.1.val, h⟩
      match x.2 with
      | .journal => decide ((chan d n).jn.staging ≠ []) && decide (bankOf (jPlace (chan d n).jn (chan d n).jn.wr) = r)
      | .queue => (lqOffered d n).any (fun i => decide (bankOf (lqPlace d n i 0) = r))
      | _ => false
    else if h : 64 ≤ x.1.val ∧ x.1.val < 72 then
      let k : EngNo := ⟨x.1.val - 64, by omega⟩
      d.eng[k].port.any (fun c => (portAddr d k c).any (fun a => decide (bankOf a = r)))
    else false

/-- A data phase on a bank begins; a requester that no longer needs the bank releases it at once, and a sibling part requests again (R257,
R462). -/
def grantBank (d : Device) (r : ResNo) (x : Requester) : Device :=
  if needsBank d r x then onArb d r (fun a => { a with owner := some x })
  else askAgain (onArb d r (fun a => { a with owner := none })) r x.1

/-- The owner releases a bank; the decided next owner's data phase begins (R258, R259). -/
def releaseBank (d : Device) (r : ResNo) : Device :=
  let a := arbOf d r
  match a.owner with
  | none => d
  | some x =>
    let d := askAgain (onArb d r (fun a => { a with owner := none, next := none })) r x.1
    match a.next with
    | some y => grantBank d r y
    | none => d

/-- The port of engine k requests the bank it needs for a context, while the engine holds no resource and waits for no other (R268, R310,
R333). -/
def portAsk (d : Device) (k : EngNo) : Device :=
  match d.eng[k].port with
  | some c => match portAddr d k c with
    | some a => turnTo d (portReq k) (bankOf a)
    | none => d
  | none => d

/-- The port takes up a context's instruction when it is idle, and requests the bank. -/
def portIssue (d : Device) (k : EngNo) (c : CtxNo) : Device :=
  let d := stall d k c 1 .pending
  if d.eng[k].port = none then portAsk (onEng d k (fun e => { e with port := some c })) k else d

/-- A context waits for the port. -/
def atPort (x : Ctx) : Bool := decide (x.st = .stalled) && decide (x.cause = 1) && decide (x.wait = .pending)

/-- The instruction at a context's pc. -/
def currentWord (e : Engine) (c : CtxNo) : Word := progAt e (e.ctx[c]).pc

/-- The port goes on to the next context that waits for it, in rotation order after the one served (R310, R333). An MSYNC that
waits for mirror transmit waits outside the port. -/
def portNext (e : Engine) (c : CtxNo) : Option CtxNo :=
  ((List.range 32).map (fun i => c + 1 + Fin.ofNat 32 i)).find? (fun x =>
    decide (x ≠ c) && atPort e.ctx[x] && decide (opOf (currentWord e x) ≠ 0x39))

/-- A memory-port instruction: the turn that issues it, and the turn that completes it with what the port has latched. -/
def viaPort (d : Device) (k : EngNo) (c : CtxNo) (complete : List Word → Device) : Device :=
  match (ctxOf d k c).wait with
  | .done ws => complete ws
  | _ => portIssue d k c

/-- The data phase of the instruction at a context's pc: the device after it and the words latched (R333 to R335). -/
def portData (d : Device) (k : EngNo) (c : CtxNo) : List Word × Device :=
  let w := currentWord d.eng[k] c
  let a := greg d k c (regA w)
  let v := greg d k c (regD w)
  let addr := memAddr (a + sext18 (BitVec.ofNat 18 (fld w 0 18)))
  let i : LqIdx := ⟨fld a 0 7, Nat.mod_lt _ (by decide)⟩
  let op := opOf w
  if op = 0x22 then
    let (x, d) := memRead d addr
    ([x], d)
  else if op = 0x23 then ([], sramPutWord d addr v)
  else if op = 0x2C then
    match boundChan d k c 22 with
    | some n =>
      let ((x, t), d) := popWord d n
      ([x, t.setWidth 32], d)
    | none => ([], d)
  else match boundChan d k c 23 with
    | none => ([], d)
    | some n =>
      if op = 0x30 then ([], windowPut d n i (fld w 0 5) v)
      else if op = 0x32 then ([], startCancel d n (if a.getLsbD 8 then none else some i))
      else ([], d)

/-- The cause of a stall ends: the context is READY with what it has latched. -/
def wake (d : Device) (k : EngNo) (c : CtxNo) (w : CtxWait) : Device :=
  onCtx d k c (fun x => { x with st := .ready, cause := 0, wait := w })

/-- The port serves context c: its data phase, and the next context takes the port (R308, R333). -/
def portServe (d : Device) (k : EngNo) (c : CtxNo) : Device :=
  let (ws, d) := portData d k c
  onEng (wake d k c (.done ws)) k (fun e => { e with port := portNext e c })

/-- The port's data phase under its bank (R256, R259, R333): with the bank its own or idle it serves context c and then releases the bank, and
the next context's request follows; else it goes on waiting. -/
def portPhase (d : Device) (k : EngNo) (c : CtxNo) : Device :=
  match portAddr d k c with
  | none => portAsk (portServe d k c) k
  | some a =>
    let r := bankOf a
    if canUse d (portReq k) r then
      let d := portServe (useBank d (portReq k) r) k c
      portAsk (if (arbOf d r).owner = some (portReq k) then releaseBank d r else d) k
    else turnTo d (portReq k) r

/-- The entry that the TXQ at a context's pc commits (R335). -/
def txqEntry (d : Device) (k : EngNo) (c : CtxNo) : Option (ChanNo × LqIdx) :=
  (boundChan d k c 23).map (fun n => (n, ⟨fld (greg d k c (regA (currentWord d.eng[k] c))) 0 7, Nat.mod_lt _ (by decide)⟩))

/-- The cell a pin instruction at a context's pc names. -/
def namedCell (d : Device) (k : EngNo) (c : CtxNo) : PinCell :=
  pinAt d (pinNo (16 * k.val + fld (currentWord d.eng[k] c) 0 4))

/-- raw[31:0] has reached t (R338). -/
def reached32 (d : Device) (t : Word) : Bool := decide ((d.tim.raw.setWidth 32 - t).toNat < 2 ^ 31)

/-- The journal that a waiting JWAIT watches has a whole entry (R334). -/
def waitsEntry (d : Device) (k : EngNo) (c : CtxNo) : Bool :=
  decide (opOf (currentWord d.eng[k] c) = 0x2E) && (match boundChan d k c 22 with
    | some n => decide (jPkts d n ≠ 0)
    | none => false)

/-- How a stall ends that only waits (R308, R334, R338), or none while its condition does not hold: a queue with a word,
a place in the egress queue, an idle converter, a moment that has come. -/
def stallEnds (d : Device) (k : EngNo) (c : CtxNo) : Option CtxWait :=
  let x := ctxOf d k c
  let ends := fun (b : Bool) (w : CtxWait) => if b then some w else none
  if x.cause = 2 then ends (decide ((namedCell d k c).rxq ≠ [])) .none
  else if x.cause = 3 then ends (decide ((namedCell d k c).txq.length < pinCap (namedCell d k c))) .none
  else if x.cause = 6 then ends (decide (d.eng[k].egress = none)) .none
  else if x.cause = 5 then ends (decide (d.eng[k].conv = none)) .none
  else match x.wait with
    | .until t => ends (reached d.tim.raw t || waitsEntry d k c) (.done [])
    | .until32 t => ends (reached32 d t) (.done [])
    | _ => none

/-- The end of a stall for the data port or the ring (cause 1). -/
def portTurn (d : Device) (k : EngNo) (c : CtxNo) : Device :=
  if opOf (currentWord d.eng[k] c) = 0x39 then (if d.eng[k].ctxCell then d else wake d k c .none)
  else if d.eng[k].port = some c then portPhase d k c else d

/-- A TXQ at its commit edge (R335): the launch-queue unit commits the entry under its bank, or the commit waits for it (R256, R462);
the result code is latched. -/
def commitTurn (d : Device) (k : EngNo) (c : CtxNo) : Device :=
  match txqEntry d k c with
  | some (n, i) =>
    let x : Requester := (qChan n, .queue)
    let rs := freeEntryNeeds d n i
    if canAll d x rs then
      let r := commitEntry (useAll d x .commit rs) n i
      wake r.2 k c (.done [BitVec.ofNat 32 r.1])
    else awaitAll d x .commit rs
  | none => wake d k c (.done [0])

/-- The commit of a TXQ that is stopped after it crossed into T (R335): applied, at once or once the launch-queue unit has the bank. -/
def commitLeft (d : Device) (k : EngNo) (c : CtxNo) : Device :=
  match txqEntry d k c with
  | some (n, i) =>
    let x : Requester := (qChan n, .queue)
    let rs := freeEntryNeeds d n i
    if canAll d x rs then (commitEntry (useAll d x .commit rs) n i).2
    else
      let d := noWait d x .commit
      awaitAll { d with con := { d.con with access := d.con.access ++ [.txq n i] } } x .access rs
  | none => d

/-- A stall ends where its cause has ended (R308). -/
def stallOver (d : Device) (k : EngNo) (c : CtxNo) : Device :=
  let x := ctxOf d k c
  if d.eng[k].st ≠ .run ∨ x.st ≠ .stalled then d
  else if x.cause = 1 then portTurn d k c
  else match stallEnds d k c with
    | some w => wake d k c w
    | none => if x.wait = .pending ∧ x.cause = 4 then commitTurn d k c else d

/-! ### Starting and stopping (R311 to R314) -/

/-- The cells of engine k. -/
def engCells (k : EngNo) : List PinNo := (List.finRange 128).filter (fun p => decide (engOf p = k))

/-- A start (R311, R314): only from STOPPED. -/
def startEngine (d : Device) (k : EngNo) : Device :=
  if d.eng[k].st ≠ .stopped then onEng d k (fun e => { e with startRefused := true })
  else
    let d := (engCells k).foldl (fun d p =>
      if bound d p then onPin d p (fun c => { c with txq := [], rxq := [], shValid := false }) else d) d
    onEng d k (fun e => { e with
      st := .run, last := 31, port := none
      ctx := Vector.ofFn (fun c : Fin 32 =>
        let x := e.ctx[c]
        if e.ctxEn.getLsbD c.val then
          { x with st := .ready, pc := x.cfg.setWidth 10, cause := 0, wait := .none }
        else { x with st := .off, cause := 0, wait := .none }) })

/-- A stalled context's instruction is aborted (R313); a commit that has crossed into T is still applied (R335). -/
def abortCtx (d : Device) (k : EngNo) (c : CtxNo) : Device :=
  let x := ctxOf d k c
  if x.st ≠ .stalled then d
  else
    let d := if x.cause = 4 ∧ x.wait = .pending then commitLeft d k c else d
    wake d k c .none

/-- A stop, or a hold of the engine's district (R311, R313); the port no longer needs a bank that it owns and releases it (R257). -/
def stopEngine (d : Device) (k : EngNo) : Device :=
  if d.eng[k].st = .run then
    let d := (List.finRange 32).foldl (fun d c => abortCtx d k c) d
    let d := onEng d k (fun e => { e with st := .stopping, port := none, conv := none })
    (heldBy d (portReq k)).foldl (fun d r => if r.val < 16 then releaseBank d r else d) d
  else d

/-- The engine's instruction and the bits of its bound cells are finished: STOPPED; a FAULTED context stays FAULTED (R306, R311,
R313, R333). In bank B with VIO_B low every sample is 0 (R444). -/
def engineStopped (d : Device) (k : EngNo) (cells : List PinStop) : Device :=
  if d.eng[k].st = .stopping then
    let d := (engCells k).foldl (fun d p =>
      if bound d p then
        onPin d p (fun c => pinStop c ((cells.find? (fun x => decide (x.cell.val = p.val % 16))).map
          (fun x => { x with word := if pinDead d p then 0 else x.word })))
      else d) d
    onEng d k (fun e => { e with
      st := .stopped
      ctx := e.ctx.map (fun x => if x.st = .faulted then x else { x with st := .off, cause := 0, wait := .none }) })
  else d

end Sys2Proof.Machine
end

