-- ==== Sys2Proof/Machine/ConcourseOps.lean ====
section
/-! DEFINITION. The shared operations of the concourse: ranks, tables, decisions, data phases (10_concourse.md). -/

namespace Sys2Proof.Machine

/-- Resource r is drained: no owner and no decided next owner (R266). -/
def drained (d : Device) (r : ResNo) : Bool := decide ((arbOf d r).owner = none) && decide ((arbOf d r).next = none)

/-- An ORDER_FAULT is recorded (R267). -/
def orderFault (d : Device) (q : ReqNo) (top r : ResNo) : Device :=
  { d with con := { d.con with
    faultQ := BitVec.ofNat 7 q.val, faultHeld := BitVec.ofNat 5 top.val, faultReq := BitVec.ofNat 5 r.val
    faultSeen := true, faultCnt := cntUp d.con.faultCnt } }

/-- A refused port request faults the instruction of the engine that waits for it, with cause 0x8 (R268, R333). -/
def portRefused (d : Device) (k : EngNo) : Device :=
  match d.eng[k].port with
  | some c => onEng (ctxFault d k c 8) k (fun e => { e with port := portNext e c })
  | none => d

/-! ### Data phases (R259, R270, R271) -/

/-- A span-local cell (R222). -/
def spanLocal (t : BitVec 6) : Bool := [17, 18, 19, 20].contains t.toNat

/-- The first TOPO of JOINED has still to leave by a side (R229). -/
def topoFirst (d : Device) (s : Side) : Bool :=
  match s with
  | .east => d.ring.topoEast
  | .west => d.ring.topoWest

/-- A cell of this type may leave by a side in the join state: in JOINED TOPO, then any cell (R229, R230). -/
def mayLeave (d : Device) (s : Side) (t : BitVec 6) : Bool :=
  match d.ring.join with
  | .off => false
  | .training => spanLocal t
  | .joining => spanLocal t || decide (t = 9)
  | .joined => !topoFirst d s || spanLocal t || decide (t = 10)
  | .collision => spanLocal t || decide (t = 10)

/-- The first TOPO has left by a side (R229). -/
def topoLeft (d : Device) (s : Side) (t : BitVec 6) : Device :=
  if t = 10 then
    match s with
    | .east => { d with ring := { d.ring with topoEast := false } }
    | .west => { d with ring := { d.ring with topoWest := false } }
  else d

/-- The first entry of q that a test admits, and the list without it. -/
def takeFirst {α : Type} (l : List (ReqNo × α)) (q : ReqNo) (ok : α → Bool) : Option (α × List (ReqNo × α)) :=
  match l with
  | [] => none
  | (p, x) :: r =>
    if decide (p = q) && ok x then some (x, r)
    else match takeFirst r q ok with
      | some (y, r') => some (y, (p, x) :: r')
      | none => none

/-- The data phase of an add-port grant copies one cell of q into the egress buffer; none when q has none to send (R257,
R271). -/
def copyCell (d : Device) (s : Side) (q : ReqNo) : Option Device :=
  let ok := fun (c : RCell) => mayLeave d s c.ctype
  match s with
  | .east => (takeFirst d.ring.outEast q ok).map (fun x =>
      topoLeft { d with ring := { d.ring with outEast := x.2, bufEast := some x.1 } } .east x.1.ctype)
  | .west => (takeFirst d.ring.outWest q ok).map (fun x =>
      topoLeft { d with ring := { d.ring with outWest := x.2, bufWest := some x.1 } } .west x.1.ctype)

/-- The type code of a mirror cell (R282). -/
def mirType (m : MirMsg) : BitVec 6 :=
  match m with
  | .heartbeat _ => 0x20
  | .lqWin _ _ _ _ => 0x21
  | .lqState _ _ _ _ _ _ => 0x22
  | .fc _ _ _ _ => 0x23
  | .jpos _ _ _ => 0x24
  | .time _ _ _ _ => 0x25
  | .ballot _ _ _ _ _ _ => 0x26
  | .holdlog _ _ _ => 0x27
  | .context _ _ _ => 0x28
  | .lock _ _ _ _ _ _ => 0x29
  | .epoch _ _ _ => 0x2A
  | .token _ _ => 0x2B
  | .resync _ => 0x2C

/-- The unit a mirror cell names in dest: a channel, of a TOKEN the one channel it moves, 32k + c for a context, a lock (R282); 0 where there
is none. -/
def mirUnit (m : MirMsg) : Nat :=
  match m with
  | .heartbeat _ => 0
  | .lqWin n _ _ _ => n.val
  | .lqState n _ _ _ _ _ => n.val
  | .fc n _ _ _ => n.val
  | .jpos n _ _ => n.val
  | .time _ _ _ _ => 0
  | .ballot n _ _ _ _ _ => n.val
  | .holdlog n _ _ => n.val
  | .context k c _ => 32 * k.val + c.val
  | .lock i _ _ _ _ _ => i.val
  | .epoch _ _ _ => 0
  | .token m _ => match chansOf m with
    | [n] => n.val
    | _ => 0
  | .resync _ => 0

/-- A cell that everything sent before it must precede: the RESYNC that ends a direction, a TOKEN (R283, R298). -/
def lastOf (m : MirMsg) : Bool :=
  match m with
  | .token _ why => decide (why ≠ .ask) && decide (why ≠ .begun)
  | .resync _ => true
  | _ => false

/-- The cell of q to send next and the list without it, in q's order: a TOKEN or an ending RESYNC only once it stands first of all, and
behind it a HEARTBEAT alone, which leaves at a coincidence edge (R281, R283, R284, R298). -/
def nextMirror (l : List (ReqNo × MirMsg)) (q : ReqNo) (edge first open_ : Bool) : Option (MirMsg × List (ReqNo × MirMsg)) :=
  match l with
  | [] => none
  | (p, m) :: r =>
    if decide (p = q) && (first || !lastOf m) && (open_ || isBeat m) && (edge || !isBeat m) then some (m, r)
    else (nextMirror r q edge false (open_ && !(decide (p = q) && lastOf m))).map (fun x => (x.1, (p, m) :: x.2))

/-- The data phase of a mirror transmit grant puts one mirror cell of q on the mirror lane with the next seq of this direction (R11, R270,
R282); none while the lane is not UP; the RESYNC that ends the items completes this direction (R283), and with the TOKEN of all channels the
former active becomes the shadow (R298). -/
def sendMirror (d : Device) (q : ReqNo) : Option Device :=
  match (if d.ring.mirror.st = .up then nextMirror d.pair.mirOut q (atEdge d) true true else none) with
  | none => none
  | some (m, rest) =>
    let cell : MirCell := { ctype := mirType m, dest := BitVec.ofNat 10 (mirUnit m), seq := d.pair.mirSeq, msg := m }
    let d := contextSent { d with pair := { d.pair with mirOut := rest, mirLane := some cell, mirSeq := d.pair.mirSeq + 1 } } m
    some (match m with
      | .resync no => stepIn { d with pair := { d.pair with resyncSent := d.pair.resyncSent || decide (d.pair.resyncFor = some no) } }
      | .token _ .whole => if d.pair.castling = some .whole then demote (peerAdvance (advanceEpochs d)) else d
      | _ => d)

/-- What a peer-delay cell of the mirror lane carries as it leaves at this edge (R209; log 21): a response its turnaround, the request's seq
and this edge's raw value. -/
def delayBody (d : Device) (x : DelayCell) : List Byte :=
  match x with
  | .request => leBytes 2 1
  | .response t2 q => leBytes 2 1 ++ leBytes 6 0 ++ leInt 8 ((d.tim.raw.toNat : Int) * 65536 - t2.toNat) ++ leBytes 2 q.toNat
      ++ leBytes 6 0 ++ leBytes 8 d.tim.raw.toNat

/-- The data phase of a mirror transmit grant to the time unit puts its first peer-delay cell on the mirror lane, at a coincidence edge (R202,
R209, R270, R282); none at another moment or while the lane exchanges none. -/
def sendDelay (d : Device) : Option Device :=
  match (if exchanges d .mirror && atEdge d then d.pair.delayOut else []) with
  | [] => none
  | x :: rest =>
    let r := mirrorCell { d with pair := { d.pair with delayOut := rest } } (delayBody d x)
    let d := putMirror r.2 r.1
    some (match x with
      | .request => setPdReq d .mirror (some (r.1.seq, d.tim.raw))
      | .response _ _ => d)

/-- What a mirror transmit grant to q sends: of the time unit a peer-delay cell before a mirror cell (R270). -/
def mirrorTurn (d : Device) (q : ReqNo) : Option Device :=
  match (if q = qTime then sendDelay d else none) with
  | some d => some d
  | none => sendMirror d q

/-- A data phase begins: x owns r. A requester that finds nothing to do releases r at once (R257). -/
def dataPhase (d : Device) (r : ResNo) (x : Requester) : Device :=
  if r.val < 16 then grantBank d r x
  else
  let d := onArb d r (fun a => { a with owner := some x })
  let done := if r.val = 16 then mirrorTurn d x.1 else if r.val = 17 then copyCell d .east x.1
    else if r.val = 18 then copyCell d .west x.1 else if waitsFor d x r then some d else none
  match done with
  | some d => d
  | none => askAgain (onArb d r (fun a => { a with owner := none })) r x.1

/-- An add-port arbiter starts a decision only when its egress buffer is free: the last copy complete, the header gone
(R271). -/
def portFree (d : Device) (r : ResNo) : Bool :=
  if r.val = 17 then decide (d.ring.bufEast = none) && decide ((arbOf d r).owner = none)
  else if r.val = 18 then decide (d.ring.bufWest = none) && decide ((arbOf d r).owner = none)
  else true

/-- The pending requesters that a decision may choose: on a frozen resource the image loader alone (R265). -/
def eligible (d : Device) (r : ResNo) : List Requester :=
  if frozen d r then (arbOf d r).pending.filter (fun x => decide (x.1 = 76)) else (arbOf d r).pending

/-- The one of two requesters that stands first in the background ranking (R262). -/
def firstRanked (t : Tab (BitVec 7)) (r : Nat) (x y : Requester) : Requester :=
  let kx := 128 * (posAt t r x.1.val).toNat + x.1.val
  let ky := 128 * (posAt t r y.1.val).toNat + y.1.val
  if ky < kx then y else x

/-- The choice of R261: the requester of the slot where it is pending, else the first in the ranking. -/
def choose (d : Device) (r : ResNo) (xs : List Requester) : Option Requester :=
  let e := slotAt d.con.slots r.val (arbOf d r).slotPtr.toNat
  match xs.find? (fun x => decide (x.1.val = e.toNat)) with
  | some x => some x
  | none => match xs with
    | [] => none
    | x :: ys => some (ys.foldl (firstRanked d.con.ranks r.val) x)

/-- A decision (R259, R261, R263, R265, R271): one pending requester becomes the owner of an idle resource or the next owner
of a held one. -/
def decision (d : Device) (r : ResNo) : Device :=
  if (arbOf d r).next ≠ none ∨ !portFree d r then d
  else
    let xs := eligible d r
    if xs = [] then d
    else
      let d := if (arbOf d r).takeStaged then takeTables d r else d
      match choose d r xs with
      | none => d
      | some x =>
        let d := onArb d r (fun a => { a with
          slotPtr := a.slotPtr + 1, pending := a.pending.filter (fun y => decide (y.1 ≠ x.1)) })
        if (arbOf d r).owner = none then dataPhase d r x else onArb d r (fun a => { a with next := some x })

/-- The port of the engine that has released a resource requests what it waits for (R268, R310). -/
def portAsks (d : Device) (q : ReqNo) : Device :=
  if h : 64 ≤ q.val ∧ q.val < 72 then portAsk d ⟨q.val - 64, by omega⟩ else d

/-- The owner releases; a sibling part that waited inside the unit requests, or the port of the engine; the decided next owner's data phase
begins (R258, R259, R268, R462). -/
def release (d : Device) (r : ResNo) : Device :=
  match (arbOf d r).owner with
  | none => d
  | some x =>
    if r.val < 16 then portAsks (releaseBank d r) x.1
    else
      let y := (arbOf d r).next
      let d := askAgain (onArb d r (fun a => { a with owner := none, next := none })) r x.1
      portAsks (match y with
        | some y => dataPhase d r y
        | none => d) x.1

/-- A request (R257, R264, R267, R462): refused against rank order; kept inside the unit while the unit has one for the
resource or holds it; else in the pending queue. A part of a channel unit and a micro-engine make none while they hold or await another
resource (R268, R462), and who requests an add port holds none (R271). -/
def request (d : Device) (x : Requester) (r : ResNo) : Device :=
  match topOf (heldBy d x) with
  | some top =>
    if rankOf r ≤ rankOf top then
      let d := orderFault d x.1 top r
      if h : 64 ≤ x.1.val ∧ x.1.val < 72 then portRefused d ⟨x.1.val - 64, by omega⟩ else d
    else if r.val = 17 ∨ r.val = 18 then d
    else turnTo d x r
  | none => turnTo d x r

/-- The host's freeze (R265). -/
def freezeWrite (d : Device) (m : BitVec 20) : Device := { d with con := { d.con with freeze := m } }

end Sys2Proof.Machine
end

