-- ==== Sys2Proof/Machine/FrameFamily.lean ====
section
/-! DEFINITION. The meanings of the frame engine's commands (04_frame_engine.md) with what comes about inside them: the
journal entry, the launch-queue entry's outcome, the ballot's steps and the witness. -/

namespace Sys2Proof.Machine

/-! ### Start of frame -/

/-- Another node's SOF (R48, R78, R83, R103): the stamp and its generation are latched and the bus is no longer idle; without an idle bus before
it the engine does not enter driving mode. During a transition
RXD is recessive and no SOF is seen. -/
def rxSof (d : Device) (n : ChanNo) : Device :=
  let f := (chan d n).fe
  if decide (modeOf d n ≠ .idle) && f.integrated && decide (f.activity = .none) && !(chan d n).line.moving then
    onFe d n (fun f => { f with
      activity := .receiving, monitored := decide (modeOf d n ≠ .driving) || (f.monitored && !idleBus f), busIdle := false
      intermission := false, asTx := false
      stamp := busStamp d n, gen := d.tim.gen, sofRaw := d.tim.raw })
  else d

/-- RX_FRAME_SOF (R78). -/
def execRxFrameSof (n : ChanNo) (s : State) : Host.Outcome State Fault Refusal := latAct s (fun d => rxSof d n)

/-- The channel selects no entry: from SLEEP_COMMIT's completion to the end of descent, while the pair unit gives the channel
up, and while its district is held (R164, R280, R360). -/
def noSelect (d : Device) (n : ChanNo) : Bool :=
  decide ((chan d n).slp.phase = .descent) || decide ((chan d n).slp.phase = .follow) || d.pair.giving.getLsbD n.val
    || decide (d.img.held = some (n.val / 8 + 1))

/-- A sent entry whose TX_ECHO entry is still to come leaves ON_BUS as the next frame of the channel enters it (R106, R122, R286; log 103). -/
def leaveOnBus (d : Device) (n : ChanNo) : Device := settleClosing d n (fun e => decide (e.st = .onBus))

/-- The fetch and the start of the frame of entry i (R75, R89, R94, R114, R115, R119, R120): the entry is ON_BUS with the SOF's stamp, the
frame as sent has its en-passant stamp and its bits, suspend transmission has gone before it where the engine was transmitter and is
error-passive, a HOLD on the bus is past its withdrawal (R171), and an FD frame with BRS measures the loop delay. -/
def startFrame (d : Device) (n : ChanNo) (i : LqIdx) (loop : Option (BitVec 7)) : Device :=
  let fe := (chan d n).fe
  let stamp := busStamp d n
  let gen := d.tim.gen
  let d := lqRefetch d n i
  let f := stampedFrame d n i stamp gen
  let d := lqPut (leaveOnBus (lqFetch d n i f.data.length) n) n i { lqEnt d n i with st := .onBus } false
  let d := onFe d n (fun fe => { fe with
    activity := .transmitting, monitored := false, busIdle := false, intermission := false, asTx := true
    stamp := stamp, gen := gen, sofRaw := d.tim.raw
    suspended := fe.asTx && decide (fe.fcState = .passive), txFrame := some f, txBits := frameBits f })
  let d := onSlp d n (fun s => if i = s.ballotIndex.toFin then { s with holdUntil := none } else s)
  match loop with
  | some k => if f.fdf && f.brs && fe.cfgUse.getLsbD 2
      then onFe d n (fun fe => { fe with tdcMeas := k.setWidth 8, tdcValid := true }) else d
  | none => d

/-- SOF of a frame the channel transmits (R48, R115, R274): the entry on offer starts, once its fetch has the bank; a fetch that still
waits for its grant misses the opportunity and the entry stays READY. -/
def sofOp (d : Device) (n : ChanNo) (loop : Option (BitVec 7)) : Device :=
  let fe := (chan d n).fe
  match lqOffered d n with
  | some i =>
    if decide (modeOf d n = .driving) && fe.integrated && decide (fe.activity = .none) && (!fe.monitored || idleBus fe)
        && !(chan d n).line.moving && !noSelect d n
    then withBank d (qChan n, .queue) (lqPlace d n i 0) (fun d => startFrame d n i loop) else d
  | none => d

/-- SOF_ON_BUS (R115). -/
def execSofOnBus (n : ChanNo) (loop : Option (BitVec 7)) (s : State) : Host.Outcome State Fault Refusal :=
  latAct s (fun d => sofOp d n loop)

/-! ### A frame valid as receiver -/

/-- A valid frame is over but for the end of EOF and the intermission, after which the bus is idle (R77); until then a frame followed in
monitoring mode is one (R83). -/
def frameEnds (d : Device) (n : ChanNo) : Device :=
  onFe d n (fun f => { f with activity := .none, busIdle := false, intermission := true, txFrame := none, txBits := [] })

/-- A frame has broken: an error frame follows, and the bus is idle at the next 11 recessive bits (R83). -/
def frameBreaks (d : Device) (n : ChanNo) : Device :=
  onFe d n (fun f => { f with activity := .none, busIdle := false, intermission := false, txFrame := none, txBits := [] })

/-- Raw at the B edge that ends the seventh EOF bit, by the channel's own nominal timing (R84, R164): RX_FRAME_VALID stands at the sample
point of the last-but-one bit of EOF, TX_FRAME_VALID at that of the last (R77, R163; log 104). A B cycle is two T ticks (02_lattice_timing.md). -/
def eofEdge (d : Device) (n : ChanNo) (rx : Bool) : Raw :=
  let t := (chan d n).fe.nbtUse
  let phase2 := (fld t 0 8 + 1) * (fld t 16 7 + 1)
  rawAdd d.tim.raw (2 * (phase2 + if rx then nominalBit t else 0))

/-- REC after a successful reception: one less, 127 from above 127 (R94). -/
def recGood (r : BitVec 8) : BitVec 8 := if 127 < r.toNat then 127 else if r = 0 then 0 else r - 1

/-- TEC after a successful transmission: one less (R94, R12). -/
def tecGood (t : BitVec 9) : BitVec 9 := if t = 0 then 0 else t - 1

/-- Fault confinement of a successful reception; in monitoring mode nothing moves (R82, R94). -/
def receiveCount (d : Device) (n : ChanNo) : Device :=
  let fe := (chan d n).fe
  if decide (modeOf d n = .driving) && !fe.monitored then
    fcChange d n fe.tec (recGood fe.recv) (fcStateOf fe.tec (recGood fe.recv)) (busStamp d n) d.tim.gen
  else d

/-- A classical base-format data frame, the form of every ballot frame (R155). -/
def plainFrame (f : Frame) : Bool := !f.fdf && !f.ide && !f.rtr

/-- Byte b of a frame's data. -/
def dataByte (f : Frame) (b : Nat) : Byte := f.data.getD b 0

/-- A frame counts as a HOLD of the running ballot (R161). -/
def holdCounts (s : Sleep) (f : Frame) (stamp : Raw) : Bool :=
  decide (s.phase = .window) && plainFrame f && decide (f.ident.toNat / 128 = s.holdBaseHi.toNat)
    && decide (1 ≤ f.dlc.toNat) && decide (dataByte f 0 = s.number) && laterThan s.windowEnd stamp

/-- The nodes that hold, each once, with the stamp of its last HOLD (R161, R172). -/
def noteHold (s : Sleep) (node : BitVec 7) (stamp : Raw) : Sleep :=
  { s with holds := s.holds.filter (fun h => decide (h.1 ≠ node)) ++ [(node, stamp)] }

/-- The channel may follow a received SLEEP_COMMIT (R170): an earlier one that it followed has ended. -/
def mayFollow (d : Device) (n : ChanNo) : Bool := mayPreArm d n && decide ((chan d n).slp.phase = .idle)

/-- A pre-arm is withdrawn as its frame turns out to be no valid SLEEP_COMMIT (R170); in FOLLOW the recogniser stays armed by the commit
that is followed (log 158). -/
def dropPreArm (d : Device) (n : ChanNo) : Device :=
  let c := chan d n
  if c.wake.preArmed && decide (c.line.state = .normal) then
    if c.slp.phase = .idle then disarm d n
    else if decide (c.slp.phase = .follow) && c.wake.armed then onWake d n (fun w => { w with preArmed := false })
    else d
  else d

/-- A valid SLEEP_COMMIT of the channel's own plan, of DLC 2 (R155, R170). -/
def isCommit (s : Sleep) (f : Frame) : Bool := plainFrame f && decide (f.ident.toNat = s.commitId.toNat) && decide (f.dlc = 2)

/-- A received valid SLEEP_COMMIT: the follower is armed and takes its descent from byte 1, from the edge that ends EOF (R164, R170). -/
def followCommit (d : Device) (n : ChanNo) (f : Frame) : Device :=
  let d := armStrobe d n
  let d := onSlp d n (fun s => { s with
    phase := .follow, followNo := dataByte f 0
    descentEnd := rawAdd (eofEdge d n true) ((dataByte f 1).toNat * msTicks) })
  mirrorBallot d n false

/-- A channel with hold_req answers a SLEEP_OFFER, of DLC 4 (R155), with a HOLD in ballot_index (R171). -/
def answerOffer (d : Device) (n : ChanNo) (f : Frame) : Device :=
  let s := (chan d n).slp
  if s.planValid && s.holdReq && plainFrame f && decide (f.ident.toNat = s.offerId.toNat) && decide (f.dlc = 4)
      && (decide (s.phase = .idle) || decide (s.phase = .follow)) then
    ballotFrame d n ⟨128 * s.holdBaseHi.toNat + s.ownNode.toNat, 1, pack [(0, (dataByte f 0).toNat)],
      some (rawAdd (eofEdge d n true) ((dataByte f 1).toNat * msTicks))⟩
  else d

/-- What a valid frame does to the channel's ballot (R161, R165, R170, R171). A channel that this member does not hold may follow, in
NORMAL, and does nothing else. -/
def frameBallot (d : Device) (n : ChanNo) (f : Frame) (stamp : Raw) : Device :=
  let s := (chan d n).slp
  if shadowFor d n then
    let d := if ballotHere d n then ballotEnd d n 3 else d
    if isCommit s f && mayFollow d n then followCommit d n f else dropPreArm d n
  else if s.phase = .descent then ballotEnd d n 3
  else if s.phase = .follow then
    let d := ballotEnd d n 3
    if isCommit s f && mayFollow d n then followCommit d n f else answerOffer d n f
  else if holdCounts s f stamp then onSlp d n (fun s => noteHold s (f.ident.setWidth 7) stamp)
  else if isCommit s f && mayFollow d n then followCommit d n f
  else answerOffer (dropPreArm d n) n f

/-- A frame becomes valid as receiver (R72, R73, R77, R94, R125, R286). With fd_en = 0 in use an FD frame is a form error or a protocol
exception at its FDF bit, and never valid. -/
def rxValid (d : Device) (n : ChanNo) (f : Frame) : Device :=
  let fe := (chan d n).fe
  if decide (fe.activity = .receiving) && decide (modeOf d n ≠ .idle) && (!f.fdf || fe.cfgUse.getLsbD 0) then
    let d := stageFrame d n (rxWords fe.stamp fe.gen f) true none
    let d := receiveCount d n
    let d := frameEnds d n
    let d := onWake d n (fun w => { w with confirming := [] })
    let d := followedEnds (witness d n f) n (some f)
    frameBallot d n f fe.stamp
  else d

/-- RX_FRAME_VALID (R77): a frame whose data bytes do not number what its DLC says stands on no bus. -/
def execRxFrameValid (n : ChanNo) (f : Frame) (s : State) : Host.Outcome State Fault Refusal :=
  if f.data.length = frameLen f then latAct s (fun d => rxValid d n f) else .fault .illFormedFrame

/-! ### A frame valid as transmitter -/

/-- The ballot after its own frame is valid: the window opens, or the descent starts (R160, R161, R164). -/
def ballotSent (d : Device) (n : ChanNo) (i : LqIdx) : Device :=
  let s := (chan d n).slp
  if i ≠ ballotIdx d n then d
  else match s.phase with
  | .offer => mirrorBallot (onSlp d n (fun s => { s with
      phase := .window, holds := [], windowEnd := rawAdd (eofEdge d n false) (s.runWindow.toNat * msTicks) })) n false
  | .commit => mirrorBallot (onSlp d n (fun s => { s with
      phase := .descent, descentEnd := rawAdd (eofEdge d n false) (s.runDescent.toNat * msTicks) })) n false
  | _ => d

/-- The completion code of a sent frame (R116, R121). -/
def sentCode (e : LqEnt) : Nat := if e.cancel then 3 else if e.late then 2 else 1

/-- The own frame becomes valid (R77, R94, R116, R121, R122). DEDUCED: it confirms no wake; a frame received does (R181; log 145). -/
def txValid (d : Device) (n : ChanNo) : Device :=
  let fe := (chan d n).fe
  match lqOnBus d n, fe.txFrame with
  | some i, some f =>
    if fe.activity = .transmitting then
      let e := lqEnt d n i
      let d := onLq d n (fun q => { q with ents := tabSet {} q.ents i.val { e with closing := true } })
      let d := stageFrame d n (txWords fe.stamp fe.gen f (sentCode e) i) true (some i)
      let d := fcChange d n (tecGood fe.tec) fe.recv (fcStateOf (tecGood fe.tec) fe.recv) (busStamp d n) d.tim.gen
      ballotSent (frameEnds d n) n i
    else d
  | _, _ => d

/-- TX_FRAME_VALID (R77). -/
def execTxFrameValid (n : ChanNo) (s : State) : Host.Outcome State Fault Refusal := latAct s (fun d => txValid d n)

/-! ### Attempts that fail -/

/-- A failed attempt of SLEEP_COMMIT withdraws its pre-arm or arming (R160, R163). -/
def commitFails (d : Device) (n : ChanNo) (i : Option LqIdx) : Device :=
  if decide ((chan d n).slp.phase = .commit) && decide (i = some (ballotIdx d n)) then disarm d n else d

/-- Arbitration is lost (R96, R116). -/
def arbLost (d : Device) (n : ChanNo) : Device :=
  if (chan d n).fe.activity = .transmitting then
    let i := lqOnBus d n
    let d := releaseFrame d n
    let d := onFe d n (fun f => { f with activity := .receiving, asTx := false, txFrame := none, txBits := [] })
    let d := commitFails d n i
    attemptFails d n 5
  else d

/-- ARBITRATION_LOST (R96). -/
def execArbitrationLost (n : ChanNo) (s : State) : Host.Outcome State Fault Refusal := latAct s (fun d => arbLost d n)

/-- The code of an error kind (R92). -/
def errCode (k : ErrKind) : Nat :=
  match k with
  | .bit0 => 1
  | .bit1 => 2
  | .stuff => 3
  | .form => 4
  | .crc => 5
  | .stuffCount => 6
  | .ack => 7
  | .tdcRange => 11

/-- What an error adds to TEC of a transmitter (R94, R12; PRESUMED from ISO 11898-1:2015, log 11). -/
def tecStep (c : ErrCount) : Nat :=
  match c with
  | .normal => 8
  | .exempt => 0
  | .heavy => 8

/-- What an error adds to REC of a receiver (R94, R12; PRESUMED from ISO 11898-1:2015, log 11). -/
def recStep (c : ErrCount) : Nat :=
  match c with
  | .normal => 1
  | .exempt => 0
  | .heavy => 8

/-- REC after an error, not above 255 (R94). -/
def recAfter (r : BitVec 8) (c : ErrCount) : BitVec 8 := BitVec.ofNat 8 (min 255 (r.toNat + recStep c))

/-- TEC after an error, held in 9 bits. -/
def tecAfter (t : BitVec 9) (c : ErrCount) : BitVec 9 := BitVec.ofNat 9 (min 511 (t.toNat + tecStep c))

/-- The counters after a detected error (R82, R94, R97). -/
def errorCount (d : Device) (n : ChanNo) (cnt : ErrCount) : Device :=
  let fe := (chan d n).fe
  if decide (modeOf d n = .driving) && !fe.monitored then
    if fe.asTx then fcSet d n (tecAfter fe.tec cnt) fe.recv (fcStateOf (tecAfter fe.tec cnt) fe.recv)
    else fcSet d n fe.tec (recAfter fe.recv cnt) (fcStateOf fe.tec (recAfter fe.recv cnt))
  else d

/-- The kind of error flag the engine sends: by its state before the error is counted, none in monitoring mode (R82, R94). -/
def flagSent (d : Device) (n : ChanNo) : Option FcSt :=
  if decide (modeOf d n = .driving) && !(chan d n).fe.monitored then some (chan d n).fe.fcState else none

/-- Where a protocol exception stands: at a recessive FDF bit with fd_en = 0 in use, else at a recessive res bit (R73). -/
def pexField (f : FrameEngine) : BusField := if f.cfgUse.getLsbD 0 then .res else .fdf

/-- The kind is possible now: TDC_RANGE only in a sent FD frame with BRS while tdc_en is in use (R89); with pex_en in use a protocol exception
stands where a form error of the FDF or res bit would (R73). -/
def errorFits (d : Device) (n : ChanNo) (kind : ErrKind) (field : BusField) : Bool :=
  let fe := (chan d n).fe
  match kind with
  | .tdcRange => decide (fe.activity = .transmitting) && fe.cfgUse.getLsbD 2 && fe.txFrame.any (fun f => f.fdf && f.brs)
  | .form => !(fe.cfgUse.getLsbD 1 && decide (field = pexField fe))
  | _ => true

/-- The field an entry records: a CRC or STUFF_COUNT error stands at the acknowledge delimiter, TDC_RANGE at the res bit (R89, R91). -/
def errorField (kind : ErrKind) (field : BusField) : BusField :=
  match kind with
  | .crc => .ackDelim
  | .stuffCount => .ackDelim
  | .tdcRange => .res
  | _ => field

/-- A bus error is detected, counted and recorded; it ends the channel's own frame (R91 to R98, R101, R116, R170). -/
def errorOp (d : Device) (n : ChanNo) (kind : ErrKind) (field : BusField) (idx : BitVec 12) (cnt : ErrCount) : Device :=
  let fe := (chan d n).fe
  if decide (modeOf d n ≠ .idle) && fe.integrated && errorFits d n kind field then
    let m0 := modeOf d n
    let i := lqOnBus d n
    let tx := decide (fe.activity = .transmitting)
    let stamp := busStamp d n
    let flag := flagSent d n
    let d := releaseFrame d n
    let d := errorCount d n cnt
    let d := onFe d n (fun f => { f with
      errFlag := flag, evt := if kind = .tdcRange then setBit f.evt 5 else f.evt })
    let d := errorEntry d n (errCode kind) (errorField kind field) fe.asTx idx.toNat stamp d.tim.gen
    let d := fcEvents d n fe stamp d.tim.gen
    let d := frameBreaks d n
    let d := if tx then attemptFails (commitFails d n i) n 6 else followedEnds d n none
    let d := dropPreArm d n
    let d := afterMode d n m0
    if decide ((chan d n).fe.fcState = .busOff) && decide (fe.fcState ≠ .busOff) then castleOnBusOff d n else d
  else d

/-- ERROR_DETECTED (R91). -/
def execErrorDetected (n : ChanNo) (kind : ErrKind) (field : BusField) (idx : BitVec 12) (cnt : ErrCount) (s : State) :
    Host.Outcome State Fault Refusal :=
  latAct s (fun d => errorOp d n kind field idx cnt)

/-- A protocol exception, enabled by pex_en (R73, R74): an entry, no count, then bus integration. -/
def pexOp (d : Device) (n : ChanNo) (field : BusField) (idx : BitVec 12) : Device :=
  let fe := (chan d n).fe
  if decide (modeOf d n ≠ .idle) && fe.integrated && fe.cfgUse.getLsbD 1 && decide (field = pexField fe) then
    let i := lqOnBus d n
    let tx := decide (fe.activity = .transmitting)
    let d := releaseFrame d n
    let d := onFe d n (fun f => { f with evt := setBit f.evt 4 })
    let d := errorEntry d n 8 field fe.asTx idx.toNat (busStamp d n) d.tim.gen
    let d := onFe (frameBreaks d n) n (fun f => { f with integrated := false })
    dropPreArm (if tx then attemptFails (commitFails d n i) n 6 else followedEnds d n none) n
  else d

/-- PROTOCOL_EXCEPTION (R74). -/
def execProtocolException (n : ChanNo) (field : BusField) (idx : BitVec 12) (s : State) : Host.Outcome State Fault Refusal :=
  latAct s (fun d => pexOp d n field idx)

/-- OVERLOAD_SENT (R76, R132): only a channel in driving mode sends one (R82), and none to a frame it follows in monitoring mode (R83). -/
def execOverloadSent (n : ChanNo) (field : BusField) (s : State) : Host.Outcome State Fault Refusal :=
  latAct s (fun d =>
    if decide (modeOf d n = .driving) && (chan d n).fe.integrated && !(chan d n).fe.monitored
    then busState (onFe d n (fun f => { f with busIdle := false, intermission := false })) n (busStamp d n) d.tim.gen 3 (pack [(0, fieldCode field)])
    else d)

/-! ### Integration and recovery -/

/-- The bus is idle, unless a frame is in progress: driving mode, where it holds, is entered (R83). -/
def busFree (f : FrameEngine) : FrameEngine := if f.activity = .none then { f with busIdle := true, intermission := false, monitored := false } else f

/-- One occurrence of 11 recessive bits (R83, R86, R99, R100, R360): the engine is integrated, and takes its bit timing, integrated before or
not, once its district is released; the bus is idle, and a recovery counts it. -/
def integrate (d : Device) (n : ChanNo) : Device :=
  if modeOf d n = .idle then d
  else
    let l := (chan d n).line
    onFe d n (fun f =>
      let f := if f.integrated then f else { f with integrated := true, activity := .none }
      let f := if d.img.held = some (n.val / 8 + 1) then f else { f with nbtUse := f.nbt, dbtUse := f.dbt, cfgUse := f.feCfg }
      let f := busFree f
      if f.recovering && runsFc d n && l.rxReady && decide (f.recovCnt.toNat < 127) then { f with recovCnt := f.recovCnt + 1 } else f)

/-- BUS_INTEGRATION (R83). -/
def execBusIntegration (n : ChanNo) (s : State) : Host.Outcome State Fault Refusal := latAct s (fun d => integrate d n)

/-- A write of go in CHn_RESTART (R99, R100, R132), which an idle channel does not journal (R125; log 97); a copy of the holder's bus-off
does not recover (R287). -/
def recoveryStart (d : Device) (n : ChanNo) : Device :=
  let fe := (chan d n).fe
  if fe.fcState ≠ .busOff then onFe d n (fun f => { f with evt := setBit f.evt 3 })
  else if fe.recovering || !runsFc d n then d
  else
    let d := onFe d n (fun f => { f with recovering := true, recovCnt := 0 })
    if modeOf d n = .idle then d else fcEntry d n 9 d.tim.raw d.tim.gen

/-- RECOVERY_START (R99). -/
def execRecoveryStart (n : ChanNo) (s : State) : Host.Outcome State Fault Refusal := latAct s (fun d => recoveryStart d n)

/-- The 128th occurrence (R95, R99, R287): WARNING_CLEARED, ERROR_ACTIVE, RECOVERY_DONE; fc_local ends. -/
def recoveryDone (d : Device) (n : ChanNo) : Device :=
  let fe := (chan d n).fe
  if fe.recovering && runsFc d n && decide (fe.fcState = .busOff) && (chan d n).line.rxReady && decide (fe.recovCnt = 127) then
    let m0 := modeOf d n
    let stamp := busStamp d n
    let d := onFe d n (fun f => { f with recovering := false, recovCnt := 0 })
    let d := fcChange d n 0 0 .active stamp d.tim.gen
    let d := fcEntry d n 10 stamp d.tim.gen
    let d := { d with pair := { d.pair with fcLocal := clrBit d.pair.fcLocal n.val } }
    afterMode (onFe d n busFree) n m0
  else d

/-- RECOVERY_DONE (R99). -/
def execRecoveryDone (n : ChanNo) (s : State) : Host.Outcome State Fault Refusal := latAct s (fun d => recoveryDone d n)

end Sys2Proof.Machine
end

