-- ==== Sys2Proof/Machine/ImageCheck.lean ====
section
/-! DEFINITION. The structure image: its header, its sections, and the checks of a load in their order
(14_structure_image.md, R342 to R358). -/

namespace Sys2Proof.Machine

/-- The result of a load (R358, R366): code, district, section type, byte offset in the image. -/
structure LoadResult where
  code : Nat
  district : Nat
  stype : Nat
  offs : Nat
  deriving DecidableEq, Repr

/-- A field of a byte string: one byte. -/
def b1 (b : List Byte) (o : Nat) : Nat := leAt b o 1

/-- Two bytes. -/
def b2 (b : List Byte) (o : Nat) : Nat := leAt b o 2

/-- Four bytes. -/
def b4 (b : List Byte) (o : Nat) : Nat := leAt b o 4

/-- Four bytes as a register value. -/
def bw (b : List Byte) (o : Nat) : Word := BitVec.ofNat 32 (b4 b o)

/-- Bytes that must be 0. -/
def zeroAt (b : List Byte) (o len : Nat) : Bool := decide (leAt b o len = 0)

/-- The bytes from o, len of them. -/
def slice (b : List Byte) (o len : Nat) : List Byte := (b.drop o).take len

/-- The district of a one-bit mask, 0 for any other. -/
def maskDistrict (m : Nat) : Nat := ((List.range 14).find? (fun d => decide (1 ≤ d) && decide (m = 2 ^ d))).getD 0

/-- District_mask as R344: all for FULL, exactly one of bits 1 to 13 for PARTIAL. -/
def maskOk (kind m : Nat) : Bool := if kind = 1 then decide (m = 0x3FFF) else decide (maskDistrict m ≠ 0)

/-- A list of checks, each with its code, district, type and offset: the first that fails. -/
def firstFailure (cs : List (Bool × LoadResult)) : Option LoadResult := (cs.find? (fun c => !c.1)).map (fun c => c.2)

/-- Step 2 (R344, R358): the header fields in byte order. len is the number of bytes there are, apply that of IMG_CTRL, full that of
a slot. -/
def headerChecks (b : List Byte) (limit : Nat) (apply full : Bool) : List (Bool × LoadResult) :=
  let kind := b1 b 6
  [ (decide (b4 b 0 = 0x34364C45), ⟨0x02, 0, 0, 0⟩),
    (decide (b1 b 5 = 1), ⟨0x03, 0, 0, 5⟩),
    ((decide (kind = 1) && !apply) || (decide (kind = 2) && !full), ⟨0x04, 0, 0, 6⟩),
    (zeroAt b 7 1, ⟨0x10, 0, 0, 7⟩),
    (decide (b4 b 8 % 4 = 0) && decide (44 ≤ b4 b 8) && decide (b4 b 8 ≤ limit), ⟨0x06, 0, 0, 8⟩),
    (decide (b2 b 12 = 0x6420), ⟨0x05, 0, 0, 12⟩),
    (maskOk kind (b2 b 14), ⟨0x07, 0, 0, 14⟩),
    (zeroAt b 18 2, ⟨0x10, 0, 0, 18⟩),
    (zeroAt b 24 4, ⟨0x10, 0, 0, 24⟩) ]

/-- Step 3 (R345). -/
def crcCheck (b : List Byte) : Bool × LoadResult :=
  (decide ((crc32c (b.take 28 ++ slice b 32 (b4 b 8 - 32))).toNat = b4 b 28), ⟨0x08, 0, 0, 28⟩)

/-- The sections from a place on (R346), or the framing failure. -/
def walk (b : List Byte) (len pos fuel : Nat) : List Section × Option LoadResult :=
  match fuel with
  | 0 => ([], some ⟨0x09, 0, 0, pos⟩)
  | f + 1 =>
    if pos = len then ([], none)
    else if len < pos + 12 then ([], some ⟨0x09, 0, 0, pos⟩)
    else
      let n := b4 b (pos + 4)
      if len < pos + 12 + n then ([], some ⟨0x09, b1 b (pos + 2) % 16, b2 b pos, pos + 4⟩)
      else
        let s : Section := { start := pos, stype := b2 b pos, district := b1 b (pos + 2),
                             resv := BitVec.ofNat 8 (b1 b (pos + 3)), body := slice b (pos + 8) n }
        let (r, e) := walk b len (pos + 12 + n) f
        (s :: r, e)

/-- The districts a type may stand for (R347). -/
def districtsOf (t : Nat) : List Nat :=
  if t = 1 ∨ t = 2 ∨ t = 0xC then [1, 2, 3, 4, 5, 6, 7, 8]
  else if t = 3 then [0, 1, 2, 3, 4, 5, 6, 7, 8]
  else if t = 4 ∨ t = 5 then [13]
  else if t = 6 ∨ t = 7 ∨ t = 8 then [9, 10, 11, 12]
  else if t = 9 ∨ t = 0xA ∨ t = 0xB ∨ t = 0xD then [0]
  else []

/-- The payload length R347 gives a section. -/
def sizeOk (s : Section) : Bool :=
  let n := s.body.length
  if s.stype = 1 then decide (n = 128)
  else if s.stype = 2 then decide (n = 256)
  else if s.stype = 3 then decide (n = if s.district = 0 then 16 else 128)
  else if s.stype = 4 then decide (n = 5120)
  else if s.stype = 5 then decide (n = 1600)
  else if s.stype = 6 then decide (144 ≤ n) && decide (n = 144 + 4 * b2 s.body 2 + 8 * b2 s.body 8)
  else if s.stype = 7 then decide (n = 384)
  else if s.stype = 8 then decide (4 ≤ n) && decide (n = 4 + 4 * b1 s.body 0)
  else if s.stype = 0xC then decide (4 ≤ n) && decide (n = 4 + 16 * b1 s.body 0)
  else if s.stype = 0xD then decide (4 ≤ n) && decide (n = 4 + (b2 s.body 2 + 3) / 4 * 4)
  else decide (n = 16)

/-- Two sections that may not both stand: the same type for a district, or the same engine twice (R347). -/
def clash (s t : Section) : Bool :=
  decide (s.stype = t.stype) && (if s.stype = 6 then decide (b1 s.body 0 = b1 t.body 0) else decide (s.district = t.district))

/-- Step 4, section by section in image order (R345 to R347). -/
def sectionChecks (b : List Byte) (mask : Nat) (before : List Section) (s : Section) : List (Bool × LoadResult) :=
  let r := fun (code o : Nat) => (⟨code, s.district % 16, s.stype, o⟩ : LoadResult)
  let end_ := s.start + 8 + s.body.length
  [ (decide ((crc32c (slice b s.start (8 + s.body.length))).toNat = b4 b end_), r 0x0A end_),
    (decide (1 ≤ s.stype) && decide (s.stype ≤ 0xD), r 0x0B s.start),
    ((districtsOf s.stype).contains s.district && decide (mask / 2 ^ s.district % 2 = 1), r 0x0C (s.start + 2)),
    (sizeOk s, r 0x0D (s.start + 4)),
    (!before.any (fun t => clash s t), r 0x0E (if s.stype = 6 then s.start + 8 else s.start)) ]

/-- Step 4 over all sections. -/
def allSections (b : List Byte) (mask : Nat) (before todo : List Section) : List (Bool × LoadResult) :=
  match todo with
  | [] => []
  | s :: r => sectionChecks b mask before s ++ allSections b mask (before ++ [s]) r

/-- The sections a district must hold, in type order, with their number (R347). -/
def requiredOf (d : Nat) : List (Nat × Nat) :=
  if d = 0 then [(3, 1), (9, 1), (0xA, 1)]
  else if d ≤ 8 then [(1, 1), (2, 1), (3, 1)]
  else if d ≤ 12 then [(6, 2), (7, 1)]
  else [(4, 1), (5, 1)]

/-- Step 5 (R347, R358). -/
def missingChecks (mask : Nat) (ss : List Section) : List (Bool × LoadResult) :=
  (List.range 14).flatMap (fun d =>
    if mask / 2 ^ d % 2 = 1 then
      (requiredOf d).map (fun q =>
        (decide (q.2 ≤ (ss.filter (fun s => decide (s.stype = q.1) && decide (s.district = d))).length), ⟨0x0F, d, q.1, 0⟩))
    else [])

/-! ### Step 6: fields (R348 to R357) -/

/-- CHANNEL_SET record at o (R348, R85): a fault of CHn_NBT by itself is its field's, any other of the two timings CHn_DBT's. -/
def chanRecord (b : List Byte) (o : Nat) : List (Bool × Nat) :=
  [ (decide (b1 b o ≤ 3), o), (decide (b1 b (o + 1) ≤ 7), o + 1), (zeroAt b (o + 2) 2, o + 2),
    (clear0 (bw b (o + 4)) 0xC0000000#32 && nbtOk (bw b (o + 4)), o + 4),
    (clear0 (bw b (o + 8)) 0xFE000000#32 && timingOk (bw b (o + 4)) (bw b (o + 8)), o + 8),
    (zeroAt b (o + 12) 4, o + 12) ]

/-- LINE_SET record at o (R349). -/
def lineRecord (b : List Byte) (o : Nat) : List (Bool × Nat) :=
  [ (decide (b1 b o ≤ 3), o), (decide (b1 b (o + 1) ≤ 3), o + 1),
    (decide (10 ≤ b2 b (o + 2)) && decide (b2 b (o + 2) ≤ 500), o + 2),
    (clear0 (bw b (o + 4)) 0xFFF00088#32 && wakeCfgOk (bw b (o + 4)), o + 4),
    (clear0 (bw b (o + 8)) 0xE0000000#32, o + 8), (clear0 (bw b (o + 12)) 0xE0000000#32, o + 12),
    (clear0 (bw b (o + 24)) 0xFC000C00#32 && fwCfgOk (bw b (o + 24)), o + 24), (zeroAt b (o + 28) 4, o + 28) ]

/-- MEMORY_PLAN record of a channel at o (R350, R151). -/
def planRecord (b : List Byte) (o : Nat) : List (Bool × Nat) :=
  [ (decide (b4 b (o + 4) % 1024 = 0) && decide (1024 ≤ b4 b (o + 4)) && decide (b4 b (o + 4) ≤ 262144), o + 4),
    (zeroAt b (o + 12) 4, o + 12) ]

/-- MEMORY_PLAN of D0 (R350). -/
def stageRecord (b : List Byte) : List (Bool × Nat) :=
  [ (decide (b4 b 4 % 0x10000 = 0) && decide (0x10000 ≤ b4 b 4) && decide (b4 b 4 ≤ 0x400000), 4), (zeroAt b 8 8, 8) ]

/-- ME_PROGRAM (R353): context c. -/
def ctxRecord (b : List Byte) (c : Nat) : List (Bool × Nat) :=
  let o := 16 + 4 * c
  let v := bw b o
  [ (clear0 v 0xFE000000#32 && ctxCodesOk v && (!(bw b 4).getLsbD c || decide (fld v 0 10 < b2 b 2)), o) ]

/-- ME_PROGRAM (R353). -/
def programChecks (d : Nat) (b : List Byte) : List (Bool × Nat) :=
  [ (decide (b1 b 0 / 2 = d - 9), 0), (decide (b1 b 1 ≤ 1), 1), (decide (b2 b 2 ≤ 1024), 2), (decide (b2 b 8 ≤ 512), 8),
    (zeroAt b 10 6, 10) ]
  ++ (List.range 32).flatMap (ctxRecord b)
  ++ (List.range (b2 b 8)).flatMap (fun i =>
    let o := 144 + 4 * b2 b 2 + 8 * i
    [ (decide (b1 b o ≤ 31), o), (decide (b1 b (o + 1) ≤ 15), o + 1), (zeroAt b (o + 2) 2, o + 2) ])

/-- PIN_BINDING record at o (R354). -/
def pinRecord (b : List Byte) (o : Nat) : List (Bool × Nat) :=
  [ (clear0 (bw b o) 0xFFF00000#32 && pinCodesOk (bw b o), o), (clear0 (bw b (o + 4)) 0xFFFF0000#32, o + 4),
    (clear0 (bw b (o + 8)) 0xFFFFFFFC#32, o + 8) ]

/-- QUEUE_JOIN (R354). -/
def joinChecks (b : List Byte) : List (Bool × Nat) :=
  (zeroAt b 1 3, 1) :: (List.range (b1 b 0)).flatMap (fun i =>
    let o := 4 + 4 * i
    [ (decide (b1 b o ≤ 31), o), (decide (1 ≤ b1 b (o + 1)) && decide (b1 b (o + 1) ≤ 3), o + 1), (zeroAt b (o + 2) 2, o + 2) ])

/-- RING_PLAN (R356, R252, R254). -/
def ringChecks (b : List Byte) : List (Bool × Nat) :=
  [ (clear0 (bw b 0) 0xFFFF00FE#32 && decide (b1 b 1 ≠ 0), 0), (clear0 (bw b 4) 0xFFFF7C00#32, 4),
    (clear0 (bw b 8) 0xFFFFF801#32, 8), (zeroAt b 12 4, 12) ]

/-- TIME_PLAN (R356, R214). -/
def timeChecks (b : List Byte) : List (Bool × Nat) :=
  [ (clear0 (bw b 0) 0xFFFFFFF8#32, 0), (clear0 (bw b 4) 0xFFFFFC00#32, 4), (clear0 (bw b 8) 0x0000FFF0#32, 8),
    (clear0 (bw b 12) 0xFC000C00#32 && bcnOk (bw b 12), 12) ]

/-- PAIR_PLAN (R356, R303). -/
def pairChecks (b : List Byte) : List (Bool × Nat) :=
  [ (clear0 (bw b 0) 0xFC00FE00#32, 0), (clear0 (bw b 4) 0xFF000080#32 && pairCfgOk (bw b 4), 4) ]

/-- SLEEP_PLAN (R355). -/
def sleepChecks (b : List Byte) : List (Bool × Nat) :=
  [ (decide (b1 b 0 ≤ 8), 0), (zeroAt b 1 3, 1) ] ++ (List.range (b1 b 0)).flatMap (fun i =>
    let o := 4 + 16 * i
    [ (decide (b1 b o ≤ 7) && !(List.range i).any (fun j => decide (b1 b (4 + 16 * j) = b1 b o)), o),
      (decide (b1 b (o + 1) ≤ 3), o + 1), (decide (b2 b (o + 2) ≤ 0x7FF), o + 2),
      (decide (b2 b (o + 4) ≤ 0x7FF) && decide (b2 b (o + 4) ≠ b2 b (o + 2)), o + 4),
      (decide (b2 b (o + 6) % 128 = 0) && decide (b2 b (o + 6) ≤ 0x780), o + 6), (decide (b1 b (o + 8) ≤ 127), o + 8),
      (decide (b1 b (o + 9) ≤ 127), o + 9), (decide (10 ≤ b1 b (o + 10)), o + 10), (decide (1 ≤ b1 b (o + 11)), o + 11),
      (decide (1 ≤ b1 b (o + 12)), o + 12), (zeroAt b (o + 14) 2, o + 14) ])

/-- TAG_DEFAULTS (R357); its padding is reserved. -/
def tagChecks (b : List Byte) : List (Bool × Nat) :=
  [ (decide (b2 b 0 + b2 b 2 ≤ 2048), 0), (zeroAt b (4 + b2 b 2) (b.length - 4 - b2 b 2), 4 + b2 b 2) ]

/-- The fields of a section's payload, each with its offset there. -/
def fieldChecks (s : Section) : List (Bool × Nat) :=
  let b := s.body
  if s.stype = 1 then (List.range 8).flatMap (fun i => chanRecord b (16 * i))
  else if s.stype = 2 then (List.range 8).flatMap (fun i => lineRecord b (32 * i))
  else if s.stype = 3 then if s.district = 0 then stageRecord b else (List.range 8).flatMap (fun i => planRecord b (16 * i))
  else if s.stype = 4 then (List.range 5120).map (fun j => (slotOk (b1 b j), j))
  else if s.stype = 5 then (List.range 1600).map (fun j => (decide (b1 b j ≤ 127) && (decide (j % 80 < 78) || decide (b1 b j = 0)), j))
  else if s.stype = 6 then programChecks s.district b
  else if s.stype = 7 then (List.range 32).flatMap (fun q => pinRecord b (12 * q))
  else if s.stype = 8 then joinChecks b
  else if s.stype = 9 then ringChecks b
  else if s.stype = 0xA then timeChecks b
  else if s.stype = 0xB then pairChecks b
  else if s.stype = 0xC then sleepChecks b
  else tagChecks b

/-- A failure of a section at an offset of its payload. -/
def failAt (code : Nat) (s : Section) (o : Nat) : LoadResult := ⟨code, s.district, s.stype, s.start + 8 + o⟩

/-- Step 6 over all sections in image order. -/
def allFields (ss : List Section) : List (Bool × LoadResult) :=
  ss.flatMap (fun s => (decide (s.resv = 0), ⟨0x10, s.district, s.stype, s.start + 3⟩)
    :: (fieldChecks s).map (fun c => (c.1, failAt 0x10 s c.2)))

/-! ### Step 7: the plan as a whole (R309, R324, R351, R356) -/

/-- A region of SRAM that an image places. -/
structure Region where
  base : Nat
  size : Nat
  align : Nat
  oneBank : Bool
  sect : Section
  offs : Nat
  deriving DecidableEq, Repr

/-- The regions of an image, in image order (R350). -/
def regionsOf (ss : List Section) : List Region :=
  (ss.filter (fun s => decide (s.stype = 3))).flatMap (fun s =>
    if s.district = 0 then [⟨b4 s.body 0, b4 s.body 4, 0x10000, false, s, 0⟩]
    else (List.range 8).flatMap (fun i =>
      [ ⟨b4 s.body (16 * i), 4 * b4 s.body (16 * i + 4), 0x1000, true, s, 16 * i⟩,
        ⟨b4 s.body (16 * i + 8), 0x3000, 0x1000, true, s, 16 * i + 8⟩ ]))

/-- A region is aligned, lies in the 16 MiB, and a journal or a launch queue lies in one bank (R256, R350, R351). -/
def placed (r : Region) : Bool :=
  decide (r.base % r.align = 0) && decide (r.base + r.size ≤ 0x1000000)
    && (!r.oneBank || decide (r.base / 0x100000 = (r.base + r.size - 1) / 0x100000))

/-- Two regions share a byte. -/
def overlaps (b1 s1 b2 s2 : Nat) : Bool := decide (b1 < b2 + s2) && decide (b2 < b1 + s1)

/-- The running regions of the districts that an image does not rebuild (R351). -/
def runningRegions (d : Device) (mask : Nat) : List (Nat × Nat) :=
  (List.finRange 64).flatMap (fun n =>
    if mask / 2 ^ (n.val / 8 + 1) % 2 = 1 then []
    else (match (chan d n).jn.base with
        | some b => [(b, 4 * (chan d n).jn.cap.toNat)]
        | none => [])
      ++ (match (chan d n).lq.base with
        | some b => [(b, 0x3000)]
        | none => []))
  ++ (if mask % 2 = 1 then [] else [(d.img.stage.toNat, d.img.stageSize.toNat)])

/-- Each region against those before it and the running ones. -/
def overlapChecks (before : List (Nat × Nat)) (rs : List Region) : List (Bool × LoadResult) :=
  match rs with
  | [] => []
  | r :: q => (!before.any (fun x => overlaps x.1 x.2 r.base r.size), failAt 0x12 r.sect r.offs)
      :: overlapChecks (before ++ [(r.base, r.size)]) q

/-- The channels whose journal a context of an engine consumes, of the engines an image does not load (R309). -/
def runningJrn (d : Device) (engines : List Nat) : List Nat :=
  (List.finRange 8).flatMap (fun k => if engines.contains k.val then [] else d.eng[k].ctx.toList.filterMap (fun x => jrnChan x.cfg))

/-- The contexts of the image's programs, in image order. -/
def contextsOf (ss : List Section) : List (Section × Nat) :=
  (ss.filter (fun s => decide (s.stype = 6))).flatMap (fun s => (List.range 32).map (fun c => (s, 16 + 4 * c)))

/-- Bindings (R309): PINS within the engine, one consumer for a channel's journal. -/
def bindingChecks (taken : List Nat) (cs : List (Section × Nat)) : List (Bool × LoadResult) :=
  match cs with
  | [] => []
  | (s, o) :: r =>
    let v := bw s.body o
    let j := jrnChan v
    (ctxPinsOk v && !(match j with
      | some n => taken.contains n
      | none => false), failAt 0x13 s o)
      :: bindingChecks (taken ++ j.toList) r

/-- The payload of a district's section of a type, empty where there is none. -/
def bodyOf (ss : List Section) (t d : Nat) : List Byte :=
  ((ss.find? (fun s => decide (s.stype = t) && decide (s.district = d))).map (fun s => s.body)).getD []

/-- Join groups (R324): aligned, within one engine, not overlapping; absorbed cells in OFF, LEVEL or CLOCK. -/
def groupChecks (ss : List Section) : List (Bool × LoadResult) :=
  (ss.filter (fun s => decide (s.stype = 8))).flatMap (fun s =>
    let pins := bodyOf ss 7 s.district
    (List.range (b1 s.body 0)).map (fun i =>
      let o := 4 + 4 * i
      let c := b1 s.body o
      let g := 2 ^ b1 s.body (o + 1)
      (decide (c % g = 0) && !(List.range i).any (fun j =>
          overlaps (b1 s.body (4 + 4 * j)) (2 ^ b1 s.body (5 + 4 * j)) c g)
        && (List.range g).all (fun a => decide (a = 0) || absorbedMode (bw pins (12 * (c + a)))), failAt 0x14 s o)))

/-- line_req and term_en against the roles (R44, R58). -/
def roleChecks (ss : List Section) : List (Bool × LoadResult) :=
  (ss.filter (fun s => decide (s.stype = 2))).flatMap (fun s =>
    (List.range 8).flatMap (fun i =>
      let role := b1 (bodyOf ss 1 s.district) (16 * i)
      [ (roleAccepts role (b1 s.body (32 * i)), failAt 0x15 s (32 * i)),
        (decide (b1 s.body (32 * i + 1) % 2 = 0) || decide (role = 1), failAt 0x15 s (32 * i + 1)) ]))

/-- Sleep identifiers outside the HOLD range (R156). -/
def sleepIdChecks (ss : List Section) : List (Bool × LoadResult) :=
  (ss.filter (fun s => decide (s.stype = 0xC))).flatMap (fun s =>
    (List.range (b1 s.body 0)).flatMap (fun i =>
      let o := 4 + 16 * i
      let outside := fun (q : Nat) => !(decide (b2 s.body (o + 6) ≤ b2 s.body q) && decide (b2 s.body q ≤ b2 s.body (o + 6) + 127))
      [ (outside (o + 2), failAt 0x16 s (o + 2)), (outside (o + 4), failAt 0x16 s (o + 4)) ]))

/-- PAIR_PLAN against the tag area (R356): TAG_IDENT is its word 0. -/
def pairNumberChecks (d : Device) (ss : List Section) : List (Bool × LoadResult) :=
  let tag := tabGet (0 : Word) d.tag 0
  (ss.filter (fun s => decide (s.stype = 0xB))).flatMap (fun s =>
    [ (decide (fld (bw s.body 0) 0 9 = fld tag 16 16), failAt 0x17 s 0),
      (decide (fld (bw s.body 0) 16 10 ≠ fld tag 0 16), failAt 0x17 s 2) ])

/-- The checks of step 7 in the table's order. -/
def planRows (d : Device) (mask : Nat) (ss : List Section) : List (Bool × LoadResult) :=
  (regionsOf ss).map (fun r => (placed r, failAt 0x11 r.sect r.offs))
    ++ overlapChecks (runningRegions d mask) (regionsOf ss)
    ++ bindingChecks (runningJrn d ((ss.filter (fun s => decide (s.stype = 6))).map (fun s => b1 s.body 0))) (contextsOf ss)
    ++ groupChecks ss ++ roleChecks ss ++ sleepIdChecks ss ++ pairNumberChecks d ss

/-- The checks that look at a field of a section. -/
def rowsOf (s : Section) (cs : List (Bool × LoadResult)) : List (Bool × LoadResult) :=
  cs.filter (fun c => decide (s.start ≤ c.2.offs) && decide (c.2.offs < s.start + 8 + s.body.length))

/-- Step 7 as step 4 and step 6: the sections in image order, each with its checks in the table's order (R358; log 58). -/
def planChecks (d : Device) (mask : Nat) (ss : List Section) : List (Bool × LoadResult) :=
  ss.flatMap (fun s => rowsOf s (planRows d mask ss))

/-- Steps 2 to 7 of a load (R358): the first failing check, else the sections. -/
def validate (d : Device) (b : List Byte) (limit : Nat) (apply full : Bool) : Option LoadResult × List Section :=
  match firstFailure (headerChecks b limit apply full) with
  | some r => (some r, [])
  | none =>
    let len := b4 b 8
    match firstFailure [crcCheck (b.take len)] with
    | some r => (some r, [])
    | none =>
      let (ss, e) := walk b len 32 (len / 12 + 1)
      match e with
      | some r => (some r, [])
      | none =>
        let mask := b2 b 14
        let count : Bool × LoadResult := (decide (ss.length = b2 b 16) && decide (1 ≤ ss.length), ⟨0x09, 0, 0, 16⟩)
        (firstFailure (count :: allSections b mask [] ss ++ missingChecks mask ss ++ allFields ss ++ planChecks d mask ss), ss)

end Sys2Proof.Machine
end

