-- ==== Sys2Proof/Machine/ImageOps.lean ====
section
/-! DEFINITION. The structure loader: holding and draining a district, writing it from an image, releasing it, and the full load
of the start-up (14_structure_image.md, R359 to R364). -/

namespace Sys2Proof.Machine

/-! ### Reading the image -/

/-- n SRAM words from an offset upward, under their check bits (R420). -/
def memWords (d : Device) (a n : Nat) : List Word × Device :=
  match n with
  | 0 => ([], d)
  | m + 1 =>
    let (w, d) := memRead d a
    let (ws, d) := memWords d (a + 4) m
    (w :: ws, d)

/-- IMG_RESULT and IMG_RESULT_OFFS (R358, R366). -/
def setResult (d : Device) (r : LoadResult) (verify : Bool) : Device :=
  { d with img := { d.img with
    resCode := BitVec.ofNat 8 r.code, resDist := BitVec.ofNat 4 r.district, resVerify := verify
    resType := BitVec.ofNat 16 r.stype, resOffs := BitVec.ofNat 32 r.offs } }

/-- The result of a load that passes. -/
def loadOk : LoadResult := ⟨0x01, 0, 0, 0⟩

/-! ### Writing a channel (R123, R151, R154, R348 to R350, R355) -/

/-- A flush of the queue (R123): every entry in use ends FLUSHED, journalled unless the channel is idle (R125; log 97), and flushed is set. -/
def flushQueue (d : Device) (n : ChanNo) : Device :=
  let d := (lqListed d n).foldl (fun d i =>
    if (lqEnt d n i).st = .free ∨ (lqEnt d n i).closing = true then d else lqWithdraw d n i 8) d
  onLq d n (fun q => { q with evt := setBit q.evt 5 })

/-- The role of a code (R79). -/
def roleOf (c : Nat) : Role := if c = 1 then .head else if c = 2 then .member else if c = 3 then .listen else .off

/-- The requestable line state of a code (R43). -/
def lineOf (c : Nat) : LineSt := if c = 1 then .sleep else if c = 2 then .normal else if c = 3 then .listen else .off

/-- The placement of a channel from its MEMORY_PLAN record (R151, R361): the journal is emptied where it moves or changes its
capacity; the queue's old words stand until its flush has read them. -/
def placeJournal (d : Device) (n : ChanNo) (base cap : Nat) : Device :=
  let j := (chan d n).jn
  if j.base = some base ∧ j.cap.toNat = cap then d else onJn d n (fun j => emptyJournal j base (BitVec.ofNat 19 cap))

/-- A channel's role, with what the change of mode brings (R79, R80). -/
def setRole (d : Device) (n : ChanNo) (r : Role) : Device :=
  let m0 := modeOf d n
  afterMode (onFe d n (fun f => { f with role := r })) n m0

/-- CHANNEL_SET, MEMORY_PLAN and the flush they call for (R123, R348, R350). -/
def loadChannel (d : Device) (n : ChanNo) (cs mp : List Byte) : Device :=
  let o := 16 * (n.val % 8)
  let role := roleOf (b1 cs o)
  let lqb := b4 mp (o + 8)
  let flush := decide (role ≠ (chan d n).fe.role) || decide ((chan d n).lq.base ≠ some lqb)
  let d := placeJournal d n (b4 mp o) (b4 mp (o + 4))
  let d := if flush then flushQueue d n else d
  let d := setRole (onFe d n (fun f => { f with
    feCfg := BitVec.ofNat 3 (b1 cs (o + 1)), nbt := bw cs (o + 4), dbt := bw cs (o + 8) })) n role
  onLq d n (fun q => { q with base := some lqb, abroad := if q.base = some lqb then q.abroad else [] })

/-- LINE_SET but for line_req, which is written at the release (R349, R360). -/
def loadLine (d : Device) (n : ChanNo) (ls : List Byte) : Device :=
  let o := 32 * (n.val % 8)
  let d := toSentinel d (fun d => onLine d n (fun l => { l with
    termEn := decide (b1 ls (o + 1) % 2 = 1), localWake := decide (b1 ls (o + 1) / 2 % 2 = 1)
    confirmMs := BitVec.ofNat 9 (b2 ls (o + 2)) }))
  let ws : WakeSet := { cfg := bw ls (o + 4), id := BitVec.ofNat 29 (b4 ls (o + 8)), idMask := BitVec.ofNat 29 (b4 ls (o + 12)),
                        dmask := BitVec.ofNat 64 (leAt ls (o + 16) 8) }
  let d := toSentinel d (fun d => onWake d n (fun w => { w with set := ws, fwCfg := bw ls (o + 24) }))
  { d with img := { d.img with lineSet := d.img.lineSet.set n (lineOf (b1 ls o)) } }

/-- SLEEP_PLAN (R154, R355): a channel without an entry has plan_valid = 0. -/
def loadSleep (d : Device) (n : ChanNo) (sp : List Byte) : Device :=
  match (List.range (b1 sp 0)).find? (fun i => decide (b1 sp (4 + 16 * i) = n.val % 8)) with
  | none => onSlp d n (fun s => { s with planValid := false })
  | some i =>
    let o := 4 + 16 * i
    onSlp d n (fun s => { s with
      planValid := true, follow := decide (b1 sp (o + 1) % 2 = 1), holdReq := decide (b1 sp (o + 1) / 2 % 2 = 1)
      offerId := BitVec.ofNat 11 (b2 sp (o + 2)), commitId := BitVec.ofNat 11 (b2 sp (o + 4))
      holdBaseHi := BitVec.ofNat 4 (b2 sp (o + 6) / 128), ballotIndex := BitVec.ofNat 7 (b1 sp (o + 8))
      ownNode := BitVec.ofNat 7 (b1 sp (o + 9)), windowMs := BitVec.ofNat 8 (b1 sp (o + 10))
      descentMs := BitVec.ofNat 8 (b1 sp (o + 11)), repeatN := BitVec.ofNat 8 (b1 sp (o + 12))
      reballotS := BitVec.ofNat 8 (b1 sp (o + 13)) })

/-- rxdly_ticks of a channel from the ledger's time calibration as loaded, 9 for a channel it does not cover (R69, R400). -/
def loadRxdly (d : Device) (n : ChanNo) : Device :=
  onLine d n (fun l => { l with rxdly := (tabGet none d.svc.cal n.val).getD 9 })

/-- A structure load writes rxdly_ticks of its channels from the calibration (R69): a full load those of every channel, a partial rebuild
those of its own district, since it changes no register of another (R362; log 141). -/
def loadDelays (d : Device) (cs : List ChanNo) : Device := cs.foldl loadRxdly d

/-- One channel of a bus district from the district's sections. -/
def loadBusChannel (ss : List Section) (d : Device) (n : ChanNo) : Device :=
  let k := n.val / 8 + 1
  let d := loadChannel d n (bodyOf ss 1 k) (bodyOf ss 3 k)
  loadSleep (loadLine d n (bodyOf ss 2 k)) n (bodyOf ss 0xC k)

/-- The channels of a district. -/
def districtChans (k : Nat) : List ChanNo := (List.finRange 64).filter (fun n => decide (n.val / 8 + 1 = k))

/-! ### Writing an engine district (R353, R354) -/

/-- The store of the words at an offset, n of them. -/
def wordTab (b : List Byte) (o n : Nat) : Tab Word :=
  (List.range n).foldl (fun t i => tabSet (0 : Word) t i (bw b (o + 4 * i))) []

/-- The registers of context c from the register records; those without a record are 0 (R353). -/
def loadRegs (b : List Byte) (c : Nat) : Vector Word 16 :=
  (List.range (b2 b 8)).foldl (fun g i =>
    let o := 144 + 4 * b2 b 2 + 8 * i
    if b1 b o = c then g.set (Fin.ofNat 16 (b1 b (o + 1))) (bw b (o + 4)) else g) (Vector.replicate 16 0)

/-- ME_PROGRAM (R353). -/
def loadProgram (d : Device) (s : Section) : Device :=
  let b := s.body
  let k : EngNo := Fin.ofNat 8 (b1 b 0)
  let d := onEng d k (fun e => { e with
    prog := wordTab b 144 (b2 b 2), ctxEn := bw b 4, scratch := [], flips := []
    ctx := Vector.ofFn (fun c : Fin 32 => { e.ctx[c] with cfg := bw b (16 + 4 * c.val), g := loadRegs b c.val }) })
  { d with img := { d.img with autostart := putBit d.img.autostart k.val (decide (b1 b 1 % 2 = 1)) } }

/-- The join code that QUEUE_JOIN gives a cell of the district (R354). -/
def joinOf (b : List Byte) (q : Nat) : Nat :=
  match (List.range (b1 b 0)).find? (fun i => decide (b1 b (4 + 4 * i) = q)) with
  | some i => b1 b (5 + 4 * i)
  | none => 0

/-- A cell's settings; a changed mode leaves nothing in its shifter. -/
def setPin (c : PinCell) (cfg : BitVec 22) (div : BitVec 16) (out : BitVec 2) : PinCell :=
  { c with cfg := cfg, div := div, out := out, busy := c.busy && decide (cfg.toNat % 8 = pinMode c) }

/-- PIN_BINDING and QUEUE_JOIN of a cell (R354). -/
def loadPin (pb qj : List Byte) (d : Device) (p : PinNo) : Device :=
  let q := p.val % 32
  let cfg := BitVec.ofNat 22 (b4 pb (12 * q) % 2 ^ 20 + 2 ^ 20 * joinOf qj q)
  onPin d p (fun c => setPin c cfg (BitVec.ofNat 16 (b4 pb (12 * q + 4))) (BitVec.ofNat 2 (b4 pb (12 * q + 8))))

/-- The cells of an engine district. -/
def districtPins (k : Nat) : List PinNo := (List.finRange 128).filter (fun p => decide (p.val / 32 + 9 = k))

/-- The engines of an engine district. -/
def districtEngines (k : Nat) : List EngNo := (List.finRange 8).filter (fun e => decide (e.val / 2 + 9 = k))

/-- An engine district from its sections. -/
def loadEngines (ss : List Section) (d : Device) (k : Nat) : Device :=
  let d := (ss.filter (fun s => decide (s.stype = 6) && decide (s.district = k))).foldl loadProgram d
  (districtPins k).foldl (loadPin (bodyOf ss 7 k) (bodyOf ss 8 k)) d

/-! ### D13 and D0 (R263, R352, R356, R357) -/

/-- The slot tables of SLOT_TABLES. -/
def slotTab (b : List Byte) : Tab (BitVec 7) :=
  (List.range 5120).foldl (fun t j => tabSet (0x7F : BitVec 7) t j (BitVec.ofNat 7 (b1 b j))) []

/-- The rankings of RANKS. -/
def rankTab (b : List Byte) : Tab (BitVec 7) :=
  (List.range 20).foldl (fun t r => (List.range 78).foldl (fun t q => posSet t r q (BitVec.ofNat 7 (b1 b (80 * r + q)))) t) []

/-- D13 into the staged tables (R263). -/
def loadTables (ss : List Section) (d : Device) : Device :=
  { d with con := { d.con with slotsNew := slotTab (bodyOf ss 4 13), ranksNew := rankTab (bodyOf ss 5 13) } }

/-- Every resource takes the staged tables as they now stand at its next decision (R263). -/
def tablesDue (d : Device) : Device :=
  { d with con := { d.con with
    slotsDue := d.con.slotsNew, ranksDue := d.con.ranksNew, res := d.con.res.map (fun a => { a with takeStaged := true }) } }

/-- The tables as last released: those a resource has still to take, else those in force (R263). -/
def tablesReleased (d : Device) : Concourse :=
  if d.con.res.any (fun a => a.takeStaged) then { d.con with slotsNew := d.con.slotsDue, ranksNew := d.con.ranksDue }
  else { d.con with slotsNew := d.con.slots, ranksNew := d.con.ranks }

/-- The tables of a full load, in force at once. -/
def tablesNow (d : Device) : Device :=
  { d with con := { d.con with slots := d.con.slotsNew, ranks := d.con.ranksNew } }

/-- The digest of R277: CHANNEL_SET, MEMORY_PLAN, SLEEP_PLAN and PAIR_PLAN payloads in image order, the partner-station field
as 0. -/
def planDigest (ss : List Section) : BitVec 32 :=
  crc32c ((ss.filter (fun s => [1, 3, 0xB, 0xC].contains s.stype)).flatMap (fun s =>
    if s.stype = 0xB then leBytes 4 (b4 s.body 0 % 65536) ++ s.body.drop 4 else s.body))

/-- PAIR_PLAN (R277, R290, R356): a declared pair forms; without the section the module is unpaired. -/
def loadPair (ss : List Section) (d : Device) : Device :=
  match ss.find? (fun s => decide (s.stype = 0xB)) with
  | none => { d with pair := { d.pair with role := .unpaired, digest := planDigest ss } }
  | some s =>
    let b := s.body
    { d with pair := { d.pair with
      role := .forming, pref := (tagWord d 1).setWidth 2, number := BitVec.ofNat 9 (b4 b 0), partner := BitVec.ofNat 10 (b4 b 0 / 65536)
      check10us := BitVec.ofNat 7 (b4 b 4), posTol := BitVec.ofNat 16 (b4 b 4 / 256), chCastleEn := BitVec.ofNat 64 (leAt b 8 8)
      held := 0, digest := planDigest ss } }

/-- RING_PLAN and TIME_PLAN (R356). -/
def loadPlans (ss : List Section) (d : Device) : Device :=
  let r := bodyOf ss 9 0
  let t := bodyOf ss 0xA 0
  { d with
    ring := { d.ring with tmo := BitVec.ofNat 8 (b1 r 1) }
    glb := { d.glb with
      evtDest := BitVec.ofNat 10 (b4 r 4), evtValid := (bw r 4).getLsbD 15, evtMask := BitVec.ofNat 11 (b4 r 8) }
    tim := { d.tim with
      servoHost := (bw t 0).getLsbD 0, master := (bw t 0).getLsbD 1, pairInc := (bw t 0).getLsbD 2
      masterSt := BitVec.ofNat 10 (b4 t 4), flags := BitVec.ofNat 4 (b4 t 8), utc := BitVec.ofNat 16 (b4 t 8 / 65536)
      beaconMs := BitVec.ofNat 10 (b4 t 12), lossN := BitVec.ofNat 4 (b4 t 12 / 4096), pdelayMs := BitVec.ofNat 10 (b4 t 12 / 65536) } }

/-- The staging area of D0's MEMORY_PLAN (R350). -/
def loadStage (ss : List Section) (d : Device) : Device :=
  let b := bodyOf ss 3 0
  { d with img := { d.img with stage := BitVec.ofNat 24 (b4 b 0), stageSize := BitVec.ofNat 23 (b4 b 4) } }

/-! ### The full load (R185, R364) -/

/-- The OFFLINE_WAKES entry of a channel with a record, which is then cleared (R184, R185). -/
def offlineEntry (tick : Nat) (d : Device) (n : ChanNo) : Device :=
  let w := (chan d n).wake
  if w.offCount = 0 ∧ w.offConfirm = false ∧ w.offOrphan = false then d
  else
    let age := if w.offCount = 0 then 0 else min (tick - w.offTick) 0xFFFFFF
    let d := wakeSleep d n (pack [(0, 8), (8, w.offCount.toNat), (16, w.offSat.toNat), (17, w.offConfirm.toNat),
      (18, w.offOrphan.toNat)]) [pack [(0, w.offSource.toNat), (8, age)]]
    onWake d n (fun w => { w with offCount := 0, offSat := false, offSource := 0, offTick := 0, offConfirm := false, offOrphan := false })

/-- A start of each engine of a list with autostart set (R353, R360, R364). -/
def autostarts (ks : List EngNo) (d : Device) : Device :=
  ks.foldl (fun d k => if d.img.autostart.getLsbD k.val then startEngine d k else d) d

/-- The districts written in the order of R364; line_req and tokens wait for step 7 of the start-up (R400). -/
def fullLoad (ss : List Section) (imageId : Nat) (tick : Nat) (d : Device) : Device :=
  let d := loadPair ss (loadPlans ss (loadStage ss d))
  let d := tablesNow (loadTables ss d)
  let d := loadDelays ((List.finRange 64).foldl (loadBusChannel ss) d) (List.finRange 64)
  let d := [9, 10, 11, 12].foldl (loadEngines ss) d
  let d := autostarts (List.finRange 8) d
  let d := { d with
    img := { d.img with id := BitVec.ofNat 32 imageId, epochs := Vector.replicate 14 0 }
    glb := { d.glb with loaded := true } }
  let d := (List.finRange 64).foldl (offlineEntry tick) d
  setResult d loadOk false

/-! ### Holding, draining and releasing a district (R360, R363) -/

/-- The ballots of a district that are not in IDLE, as they stand. -/
def saveBallots (d : Device) (k : Nat) : List BallotSave :=
  ((districtChans k).filter (fun n => decide ((chan d n).slp.phase ≠ .idle))).map (fun n =>
    { chan := n, slp := (chan d n).slp, wake := (chan d n).wake, ent := lqEnt d n (ballotIdx d n) })

/-- Step 2: a bus district's ballots end, an engine district's engines stop; D13's staged tables begin as those last released
(R263, R360). -/
def beginHold (d : Device) (k : Nat) (byHost : Bool) : Device :=
  let save := (districtEngines k).map (fun e => (e, d.eng[e]))
  let d := { d with img := { d.img with
    held := some k, byHost := byHost, drained := false, busy := true, step := 3, save := save, saveBal := saveBallots d k
    holdAt := d.tim.raw, reqDue := 0 } }
  let d := forChans d (districtChans k) (fun d n => ballotEnd d n 6)
  let d := (districtEngines k).foldl stopEngine d
  if k = 13 then { d with con := tablesReleased d } else d

/-- A channel has drained: nothing ON_BUS and the bus idle, or bus-off (R360). A channel that follows no bus has an idle one. -/
def chanDrained (d : Device) (n : ChanNo) : Bool := mayGive d n

/-- The held district has drained (R360). -/
def districtDrained (d : Device) (k : Nat) : Bool :=
  (districtChans k).all (fun n => chanDrained d n) && (districtEngines k).all (fun e => decide (d.eng[e].st = .stopped))

/-- The token of a channel at a release (R50, R278, R360). -/
def tokenAtRelease (d : Device) (n : ChanNo) : Device :=
  let drive := mayDrive (chan d n).fe.role
  if !paired d then setToken d n drive
  else
    let d := if decide (d.pair.role = .active) && drive && !d.pair.castled.getLsbD n.val && !d.pair.fenced
      then { d with pair := { d.pair with held := setBit d.pair.held n.val } }
      else if drive then d else { d with pair := { d.pair with held := clrBit d.pair.held n.val } }
    setToken d n (holdsChan d n)

/-- A channel released (R360): a channel that this member does not hold gets LISTEN in place of NORMAL. -/
def releaseChan (d : Device) (n : ChanNo) : Device :=
  let d := tokenAtRelease d n
  let req := d.img.lineSet[n]
  lineRequest d n (if shadowFor d n && decide (req = .normal) then .listen else req)

/-- A channel released by the host (R363): its line_req and token stay as they stand; a line_req that an apply under this hold wrote
from LINE_SET is sent now (R43); in a pair R278 rules the token, and NORMAL without holding the channel becomes LISTEN (log 89). -/
def releaseAsIs (d : Device) (n : ChanNo) : Device :=
  let due := d.img.reqDue.getLsbD n.val
  let d := if paired d then tokenAtRelease d n else d
  let req := (chan d n).line.req
  if shadowFor d n && decide (req = .normal) then lineRequest d n .listen else if due then lineRequest d n req else d

/-- Step 8 (R239, R302, R360): the epochs advance, TOPO and, in a pair, ROUTE_UPDATE are sent. -/
def advanceDistrict (d : Device) (k : Fin 14) : Device :=
  let d := { d with
    img := { d.img with epochs := d.img.epochs.set k (d.img.epochs[k] + 1) }
    ring := { d.ring with epoch := d.ring.epoch + 1 } }
  let d := sendTopo d
  if d.pair.role = .active ∨ d.pair.role = .shadow then mirrorEpoch (sendRoute d 4 (peerEpoch d)) else d

/-- Steps 7 and 8: the district is released, by the loader or, as its channels stand, by the host (R360, R363). -/
def releaseDistrict (d : Device) (k : Nat) (host : Bool) : Device :=
  let d := { d with img := { d.img with
    held := none, byHost := false, drained := false, busy := false, step := 0, save := [], saveBal := [], image := none } }
  let d := forChans d (districtChans k) (fun d n => if host then releaseAsIs d n else releaseChan d n)
  let d := onImg d (fun m => { m with reqDue := 0 })
  let d := autostarts (districtEngines k) d
  let d := if k = 13 then tablesDue d else d
  if h : k < 14 then advanceDistrict d ⟨k, h⟩ else d

/-! ### Step 4: the banks of what moves (R265, R361) -/

/-- The image loader as requester (R256). -/
def loaderReq : Requester := (76, .whole)

/-- The old and new SRAM regions, base and size, of a channel whose journal or launch-queue placement, or journal capacity, an image
changes; none of any other (R361). -/
def movedRegions (d : Device) (mp : List Byte) (n : ChanNo) : List (Nat × Nat) :=
  let o := 16 * (n.val % 8)
  let c := chan d n
  let old := fun (b : Option Nat) (size : Nat) => (b.map (fun b => (b, size))).toList
  if c.jn.base = some (b4 mp o) ∧ c.jn.cap.toNat = b4 mp (o + 4) ∧ c.lq.base = some (b4 mp (o + 8)) then []
  else old c.jn.base (4 * c.jn.cap.toNat) ++ old c.lq.base 0x3000 ++ [(b4 mp o, 4 * b4 mp (o + 4)), (b4 mp (o + 8), 0x3000)]

/-- The banks that hold the regions of a district's channels that move, in ascending rank (R361). -/
def movedBanks (d : Device) (k : Nat) (ss : List Section) : List ResNo :=
  let rs := (districtChans k).flatMap (movedRegions d (bodyOf ss 3 k))
  (List.finRange 20).filter (fun r => decide (r.val < 16)
    && rs.any (fun x => decide (x.1 / 0x100000 ≤ r.val) && decide (r.val ≤ (x.1 + x.2 - 1) / 0x100000)))

/-- The loader's freeze is set on the banks of a list, and on no other (R265, R361). -/
def loaderFreezes (d : Device) (rs : List ResNo) : Device :=
  { d with con := { d.con with loaderFreeze := rs.foldl (fun m r => setBit m r.val) 0 } }

/-- The loader takes the banks of a list one at a time (R361): it stops at one that it has to wait for, its request pending there.
Whether it holds them all, and the device. -/
def takeBanks (d : Device) (rs : List ResNo) : Bool × Device :=
  match rs with
  | [] => (true, d)
  | r :: t =>
    if (arbOf d r).owner = some loaderReq then takeBanks d t
    else if mayUse d loaderReq r then takeBanks (onArb (useBank d loaderReq r) r (fun a => { a with owner := some loaderReq })) t
    else (false, awaitAll d loaderReq .loader [r])

/-- The loader releases its banks and clears its freeze (R361). -/
def leaveBanks (d : Device) (rs : List ResNo) : Device := loaderFreezes (rs.foldl releaseBank d) []

/-- LINE_SET's line_req stands in the register of a channel that the host holds; it is sent at the release (R43, R363). -/
def lineDue (d : Device) (n : ChanNo) : Device :=
  let d := onLine d n (fun l => { l with req := d.img.lineSet[n], reqWritten := true })
  { d with img := { d.img with reqDue := setBit d.img.reqDue n.val } }

/-- Steps 5 and 6 of an apply (R360), its banks held, then the release unless the host holds the district (R363). -/
def rewrite (d : Device) (k : Nat) (ss : List Section) (rs : List ResNo) : Device :=
  let d := leaveBanks ((districtChans k).foldl (loadBusChannel ss) d) rs
  let d := loadDelays (if 9 ≤ k ∧ k ≤ 12 then loadEngines ss d k else d) (districtChans k)
  let d := if k = 13 then loadTables ss d else d
  let d := setResult { d with img := { d.img with image := none, step := 0 } } loadOk false
  if d.img.byHost then forChans d (districtChans k) lineDue else releaseDistrict d k false

/-- Steps 4 to 6 of an apply (R360, R361): until the loader holds every bank of what moves, it waits in step 4 (log 119). -/
def rebuild (d : Device) (k : Nat) (ss : List Section) : Device :=
  let rs := movedBanks d k ss
  match takeBanks (loaderFreezes d rs) rs with
  | (true, d) => rewrite (noWait d loaderReq .loader) k ss rs
  | (false, d) => { d with img := { d.img with image := some ss, step := 4 } }

/-- The held district has drained: channels in NORMAL go to LISTEN, and an apply goes on (R360). -/
def holdDrained (d : Device) (k : Nat) : Device :=
  let d := forChans d (districtChans k) (fun d n => if (chan d n).line.state = .normal then lineRequest d n .listen else d)
  let d := { d with img := { d.img with drained := true, step := 0 } }
  match d.img.image with
  | some ss => rebuild d k ss
  | none => d

/-- The loader goes on with an apply that waits for a bank in step 4 (R361). -/
def applyGo (d : Device) : Device :=
  match d.img.held, d.img.image with
  | some k, some ss => if d.img.drained then rebuild d k ss else d
  | _, _ => d

/-- A drain that has ended is taken up. -/
def drainOp (d : Device) : Device :=
  match d.img.held with
  | some k => if d.img.drained then applyGo d else if districtDrained d k then holdDrained d k else d
  | none => d

/-- A ballot that step 2 ended stands as before, its frame's launch-queue entry included (R360; log 120). -/
def restoreBallot (d : Device) (x : BallotSave) : Device :=
  let n := x.chan
  if (chan d n).slp.phase ≠ .idle then d
  else
    let d := onSlp d n (fun s => { s with
      phase := x.slp.phase, lastResult := x.slp.lastResult, holds := x.slp.holds, reballotAt := x.slp.reballotAt })
    let d := onWake d n (fun w => { w with armed := x.wake.armed, preArmed := x.wake.preArmed, armWait := x.wake.armWait })
    let i := ballotIdx d n
    let e := lqEnt d n i
    let d := match x.slp.due with
      | some fr => ballotFrame d n fr
      | none => if x.ent.st = .onBus then (if e.st = .free then d else lqPut d n i { e with cancel := x.ent.cancel } false)
        else if e.st = .free then lqPut d n i x.ent false else d
    mirrorBallot d n false

/-- hold_ms has passed since the drain began (R360). -/
def holdOver (d : Device) : Bool := reached d.tim.raw (rawAdd d.img.holdAt (d.img.holdMs.toNat * msTicks))

/-- The drain has not completed within hold_ms (R360): the load ends TIMEOUT, ballots and engines stand as before step 2. -/
def holdTimeout (d : Device) : Device :=
  match d.img.held with
  | some k =>
    if d.img.drained || !holdOver d then d
    else
      let d := d.img.save.foldl (fun d x => onEng d x.1 (fun _ => x.2)) d
      let d := d.img.saveBal.foldl restoreBallot d
      setResult { d with img := { d.img with
        held := none, byHost := false, busy := false, step := 0, save := [], saveBal := [], image := none } } ⟨0x19, k, 0, 0⟩ false
  | none => d

/-- The loader is at work on an image (R358). -/
def loadRuns (d : Device) : Bool := d.img.image.isSome || d.img.reading.isSome

/-- A valid image to apply has district k held (R360). -/
def imageToApply (d : Device) (k : Nat) (ss : List Section) : Device :=
  let d := onImg (if d.img.held = some k then d else beginHold d k false) (fun m => { m with image := some ss })
  if d.img.drained then rebuild d k ss
  else if k = 13 then holdDrained d k else d

/-- What a verify or an apply does after its checks: the refusal found first, or the verify's result, or the apply. -/
def loadChecked (d : Device) (apply : Bool) (k : Nat) (x : Option LoadResult × List Section) : Device :=
  match x.1 with
  | some r => setResult d r (!apply)
  | none => if apply then imageToApply d k x.2 else setResult d loadOk true

/-- The image has been read: the checks of R358 and what follows from them. -/
def loadRead (d : Device) (apply : Bool) (len : Nat) (b : List Byte) : Device :=
  let d := { d with img := { d.img with 
    reading := none, step := if d.img.held ≠ none ∧ d.img.drained = false then 3 else 0, busy := decide (d.img.held ≠ none) } }
  let k := maskDistrict (b2 b 14)
  if apply && d.img.held.isSome && decide (d.img.held ≠ some k) then setResult d ⟨0x18, 0, 0, 0⟩ false
  else loadChecked d apply k (validate d b len apply false)

/-- The words of the loader's next burst: up to 64, in one bank (R270, R351). -/
def burstLen (a left : Nat) : Nat := min (min 64 left) ((0x100000 - a % 0x100000) / 4)

/-- The loader reads on, a burst under its bank at a time (R270, R351; log 134): it stops where it has to wait, and after the last goes on to
the checks. -/
def readStage (fuel : Nat) (d : Device) : Device :=
  match fuel, d.img.reading with
  | m + 1, some (apply, len, b) =>
    let left := (len + 3) / 4 - b.length / 4
    let a := d.img.stage.toNat + b.length
    let r := bankOf a
    if left = 0 then loadRead (noWait d loaderReq .loader) apply len (b.take len)
    else if canUse d loaderReq r then
      let (ws, d) := memWords (useAll d loaderReq .loader [r]) a (burstLen a left)
      let d := if holds d loaderReq r then releaseBank d r else d
      readStage m { d with img := { d.img with reading := some (apply, len, b ++ ws.flatMap (fun w => leBytes 4 w.toNat)) } }
    else awaitAll d loaderReq .loader [r]
  | _, _ => d

/-- As many bursts as the staging area may take, and one turn more. -/
def burstsOf (len : Nat) : Nat := len / 256 + 8

/-- The loader goes on with what it waits for a bank for (R351, R361). -/
def loaderGo (d : Device) : Device :=
  match d.img.reading with
  | some (_, len, _) => readStage (burstsOf len) d
  | none => applyGo d

/-- A verify or an apply (R343, R358 to R360, R363): the length is taken from IMG_SRC, at most the staging size is read (R438). -/
def loadCommand (d : Device) (apply : Bool) : Device :=
  if loadRuns d then setResult d ⟨0x18, 0, 0, 0⟩ (!apply)
  else
    loaderGo { d with img := { d.img with
      busy := true, step := 1, reading := some (apply, min d.img.src.toNat d.img.stageSize.toNat, []) } }

/-- A hold by the host (R363, R437). -/
def holdCommand (d : Device) (src : Src) (k : Nat) : Device :=
  if k = 0 ∨ 14 ≤ k then glbErr (setResult d ⟨0x0C, k, 0, 0⟩ false) 1 src 0x1000000
  else if loadRuns d ∨ (d.img.held ≠ none ∧ d.img.held ≠ some k) then setResult d ⟨0x18, k, 0, 0⟩ false
  else if d.img.held = some k then d
  else
    let d := beginHold d k true
    if k = 13 then holdDrained d k else d

/-- A release by the host (R363, R437): with no district held, or for another one, nothing changes. -/
def releaseCommand (d : Device) (src : Src) (k : Nat) : Device :=
  if k = 0 ∨ 14 ≤ k then glbErr (setResult d ⟨0x0C, k, 0, 0⟩ false) 1 src 0x1000000
  else if d.img.held = some k ∧ d.img.drained = true ∧ loadRuns d = false then releaseDistrict d k true else d

end Sys2Proof.Machine
end

