-- ==== Sys2Proof/Machine/SleepFamily.lean ====
section
/-! DEFINITION. The meanings of the sleep ballot and wake recogniser commands (07_sleep_wake.md). -/

namespace Sys2Proof.Machine

/-! ### The ballot -/

/-- The check of R158 that fails first, 0 if none. -/
def ballotCheck (d : Device) (n : ChanNo) : Nat :=
  let c := chan d n
  if !c.slp.planValid then 1
  else if c.fe.role ≠ .head then 2
  else if decide (c.line.state ≠ .normal) || decide (modeOf d n ≠ .driving) then 3
  else if c.slp.phase ≠ .idle then 4
  else if (lqEnt d n (ballotIdx d n)).st ≠ .free then 5
  else 0

/-- A ballot starts, or is refused (R154, R155, R157, R158, R160). DESIGN CHOICE: a refused go drops an automatic ballot that is pending
too (R169; log 144). -/
def ballotGo (d : Device) (n : ChanNo) : Device :=
  let c := ballotCheck d n
  if c ≠ 0 then onSlp d n (fun s => { s with lastResult := 7, refuseReason := BitVec.ofNat 4 c, reballotAt := none })
  else
    let d := onSlp d n (fun s => { s with
      phase := .offer, number := s.number + 1, runWindow := s.windowMs, runDescent := s.descentMs
      runRepeat := s.repeatN, runReballot := s.reballotS, reballotAt := none, holds := [] })
    let s := (chan d n).slp
    let d := wakeSleep d n (pack [(0, 1), (8, s.number.toNat)]) [pack [(0, s.runWindow.toNat), (8, s.runDescent.toNat)]]
    mirrorBallot (ballotFrame d n ⟨s.offerId.toNat, 4, pack [(0, s.number.toNat), (8, s.runWindow.toNat), (16, s.runDescent.toNat)], none⟩)
      n false

/-- BALLOT_GO (R158). -/
def execBallotGo (n : ChanNo) (s : State) : Host.Outcome State Fault Refusal := latAct s (fun d => ballotGo d n)

/-- BALLOT_ABORT (R160). -/
def execBallotAbort (n : ChanNo) (s : State) : Host.Outcome State Fault Refusal := latAct s (fun d => ballotEnd d n 5)

/-- An unused hold-log entry. -/
def noHold : HoldEnt := ⟨0, false, 0, false, 0, 0, 0, false⟩

/-- Tell the partner the whole hold log (R284). -/
def mirrorLog (d : Device) (n : ChanNo) : Device :=
  (List.finRange 16).foldl (fun d i => mirrorChan d n (.holdlog n i.val (chan d n).slp.log[i])) d

/-- CLEAR_LOG (R173). -/
def execClearLog (n : ChanNo) (s : State) : Host.Outcome State Fault Refusal :=
  latAct s (fun d => mirrorLog (onSlp d n (fun s => { s with log := Vector.replicate 16 noHold })) n)

/-- The older of two entries by last stamp. -/
def olderHold (log : Vector HoldEnt 16) (a b : Fin 16) : Fin 16 := if laterThan (log[a]).stamp (log[b]).stamp then b else a

/-- The place of a HOLD identifier in the log: its entry, else an unused one, else the oldest (R172). -/
def holdPlace (log : Vector HoldEnt 16) (ident : BitVec 29) : Fin 16 :=
  match (List.finRange 16).find? (fun i => (log[i]).used && decide ((log[i]).ident = ident)) with
  | some i => i
  | none =>
    match (List.finRange 16).find? (fun i => !(log[i]).used) with
    | some i => i
    | none => (List.finRange 16).foldl (olderHold log) 0

/-- A HOLD identifier of a node (R156). -/
def holdIdent (s : Sleep) (node : BitVec 7) : BitVec 29 := BitVec.ofNat 29 (128 * s.holdBaseHi.toNat + node.toNat)

/-- A node that held is recorded: count, streak and last stamp; a streak that reaches hold_repeat_n writes HOLD_REPEAT and
sends its event, once until it has returned to 0 (R10, R172, R173). -/
def recordHold (d : Device) (n : ChanNo) (h : BitVec 7 × Raw) : Device :=
  let s := (chan d n).slp
  let ident := holdIdent s h.1
  let i := holdPlace s.log ident
  let old := s.log[i]
  let e := if old.used && decide (old.ident = ident) then old else noHold
  let streak := if e.streak.toNat < s.runRepeat.toNat then e.streak + 1 else s.runRepeat
  let e' : HoldEnt := ⟨ident, true, if e.count = 0xFFFF#16 then e.count else e.count + 1,
    e.sat || decide (e.count = 0xFFFF#16), h.1, streak, h.2, e.told || decide (streak = s.runRepeat)⟩
  let d := onSlp d n (fun s => { s with log := s.log.set i e' })
  if !e.told && decide (streak = s.runRepeat) then
    let d := wakeSleep d n (pack [(0, 3), (8, h.1.toNat), (16, s.number.toNat)]) [pack [(0, ident.toNat)]]
    let d := onWake d n (fun w => { w with evt := setBit w.evt 1 })
    eventNow d 3 n.val (h.1.toNat + 256 * s.number.toNat)
  else d

/-- The streak of every used entry whose node did not hold returns to 0 (R172). -/
def clearStreaks (s : Sleep) : Sleep :=
  { s with log := s.log.map (fun e =>
      if s.holds.any (fun h => decide (holdIdent s h.1 = e.ident)) then e else { e with streak := 0, told := false }) }

/-- The hold log at a window decision (R172). -/
def updateLog (d : Device) (n : ChanNo) : Device :=
  let hs := (chan d n).slp.holds
  let d := onSlp d n (fun s => { s with holders := BitVec.ofNat 7 (min 127 s.holds.length) })
  let d := hs.foldl (fun d h => recordHold d n h) d
  mirrorLog (onSlp d n clearStreaks) n

/-- The window decision (R160 to R162): HELD, ABORTED_BY_QUEUE, or SLEEP_COMMIT built and committed. -/
def windowDecision (d : Device) (n : ChanNo) : Device :=
  let s := (chan d n).slp
  if decide (s.phase = .window) && reached d.tim.raw s.windowEnd && decide ((chan d n).fe.activity = .none) && !shadowFor d n then
    let d := updateLog d n
    if s.holds ≠ [] then ballotEnd d n 2
    else if (lqListed d n).any (fun i => lqReady d n i && decide (i ≠ ballotIdx d n)) then ballotEnd d n 4
    else if (lqEnt d n (ballotIdx d n)).st ≠ .free then ballotEnd d n 4
    else
      let d := onSlp d n (fun s => { s with phase := .commit })
      mirrorBallot (ballotFrame d n ⟨s.commitId.toNat, 2, pack [(0, s.number.toNat), (8, s.runDescent.toNat)], none⟩) n false
  else d

/-- BALLOT_WINDOW_END (R162). -/
def execBallotWindowEnd (n : ChanNo) (s : State) : Host.Outcome State Fault Refusal := latAct s (fun d => windowDecision d n)

/-- SLEEP_COMMIT is ON_BUS. -/
def commitOnBus (d : Device) (n : ChanNo) : Bool :=
  decide ((chan d n).slp.phase = .commit) && decide (lqOnBus d n = some (ballotIdx d n))

/-- PRE_ARM (R163): the pre-arm of a SLEEP_COMMIT attempt. -/
def execPreArm (n : ChanNo) (s : State) : Host.Outcome State Fault Refusal :=
  latAct s (fun d => if commitOnBus d n then armOp d n true else d)

/-- ARM (R163): the strobe at the last-but-one bit of EOF of SLEEP_COMMIT. -/
def execArm (n : ChanNo) (s : State) : Host.Outcome State Fault Refusal :=
  latAct s (fun d => if commitOnBus d n then armStrobe d n else d)

/-- The pre-arm of a frame that may be a SLEEP_COMMIT (R170). In FOLLOW the recogniser is armed already and keeps its calibration
(R175): the pre-arm of a second SLEEP_COMMIT disturbs it in nothing (log 158). -/
def followPreArm (d : Device) (n : ChanNo) : Device :=
  let w := (chan d n).wake
  if (chan d n).slp.phase = .follow then
    if w.armed then
      wakeSleep (onWake d n (fun w => { w with preArmed := true })) n (pack [(0, 7), (8, 1)]) [pack [(0, w.armedCal.toNat)]]
    else d
  else armOp d n true

/-- FOLLOW_PRE_ARM (R170): a channel that may follow, in FOLLOW too, pre-arms at the IDE bit of a frame it receives. -/
def execFollowPreArm (n : ChanNo) (s : State) : Host.Outcome State Fault Refusal :=
  latAct s (fun d =>
    if mayPreArm d n && decide ((chan d n).fe.activity = .receiving) then followPreArm d n else d)

/-- Descent ends at a bus idle at or after its time (R45, R160, R164, R171): SLEPT, SLEEP, and the shadow's sleep order. -/
def descentEndOp (d : Device) (n : ChanNo) : Device :=
  let s := (chan d n).slp
  if (decide (s.phase = .descent) || decide (s.phase = .follow)) && reached d.tim.raw s.descentEnd
      && idleBus (chan d n).fe && decide ((chan d n).line.state = .normal)
      && ballotHere d n then
    let d := ballotEnd d n 1
    let d := lineMove d n .sleep .sleep 7
    mirrorBallot d n true
  else d

/-- DESCENT_END (R164). -/
def execDescentEnd (n : ChanNo) (s : State) : Host.Outcome State Fault Refusal := latAct s (fun d => descentEndOp d n)

/-- The offer's window end: a HOLD not ON_BUS becomes FREE, without a TX_ECHO entry (R171). -/
def holdWithdraw (d : Device) (n : ChanNo) : Device :=
  match (chan d n).slp.holdUntil with
  | some t =>
    if reached d.tim.raw t then
      let d := onSlp d n (fun s => { s with holdUntil := none })
      let i := ballotIdx d n
      let e := lqEnt d n i
      if (decide (e.st = .ready) || decide (e.st = .waiting)) && !e.closing
          && (decide ((chan d n).slp.phase = .idle) || decide ((chan d n).slp.phase = .follow)) then lqFree d n i else d
    else d
  | none => d

/-- HOLD_WITHDRAW (R171). -/
def execHoldWithdraw (n : ChanNo) (s : State) : Host.Outcome State Fault Refusal := latAct s (fun d => holdWithdraw d n)

/-- The automatic ballot (R169). -/
def reballotOp (d : Device) (n : ChanNo) : Device :=
  match (chan d n).slp.reballotAt with
  | some t => if reached d.tim.raw t then ballotGo d n else d
  | none => d

/-- REBALLOT (R169). -/
def execReballot (n : ChanNo) (s : State) : Host.Outcome State Fault Refusal := latAct s (fun d => reballotOp d n)

/-! ### Calibration -/

/-- A calibration starts (R174, R175): in NORMAL, LISTEN or STANDBY, or for an arming that waits. -/
def wakeCalStart (d : Device) (n : ChanNo) : Device :=
  let st := (chan d n).line.state
  if canMeasure d && (decide (st = .normal) || decide (st = .listen) || decide (st = .standby) || (chan d n).wake.armWait)
  then onWake d n (fun w => { w with calBusy := true }) else d

/-- WAKE_CAL_START (R174). -/
def execWakeCalStart (n : ChanNo) (s : State) : Host.Outcome State Fault Refusal := latAct s (fun d => wakeCalStart d n)

/-- A calibration is complete (R174, R175): CHn_WAKE_CAL, the sentinel's copy, and the arming that waited for it. -/
def wakeCalDone (d : Device) (n : ChanNo) (taps : BitVec 12) : Device :=
  let w := (chan d n).wake
  if w.calBusy then
    let d := onWake d n (fun w => { w with
      calBusy := false, calTaps := taps, calValid := true, calRaw := d.tim.raw, sentCal := some taps })
    if w.armWait then armWith d n w.preArmed taps else d
  else d

/-- WAKE_CAL_DONE (R174). -/
def execWakeCalDone (n : ChanNo) (taps : BitVec 12) (s : State) : Host.Outcome State Fault Refusal :=
  latAct s (fun d => wakeCalDone d n taps)

/-! ### False wakes -/

/-- A WAKE_MODE entry (R182 to R184): cause 1 fallback, 2 host. -/
def wakeModeEntry (d : Device) (n : ChanNo) (mode : Bool) (cause : Nat) : Device :=
  wakeSleep d n (pack [(0, 6), (8, mode.toNat), (12, cause)]) []

/-- wake_mode set. -/
def setWakeMode (w : Wake) (mode : Bool) : Wake := { w with set := { w.set with cfg := putBit w.set.cfg 2 mode } }

/-- The false wakes whose age at a tick is within the window (R182). -/
def recentFalse (w : Wake) (tick : Nat) : Nat :=
  (w.fwTimes.filter (fun t => decide (tick - t ≤ fld w.fwCfg 16 10 * 1000))).length

/-- The fw_limit-th false wake in the window switches to FRAME_ONLY (R182). DESIGN CHOICE: a channel in FRAME_ONLY already switches no more
(log 146), and a switch while the lattice die is in reset leaves the event pending in GLB_EVT_PEND for after the release (log 147). -/
def fallback (d : Device) (n : ChanNo) (tick : Nat) : Device :=
  let w := (chan d n).wake
  let limit := fld w.fwCfg 12 4
  if decide (limit ≠ 0) && decide (limit ≤ recentFalse w tick) && !w.set.cfg.getLsbD 2 then
    let d := onWake d n (fun w => { setWakeMode w true with evt := setBit w.evt 0 })
    let d := wakeModeEntry d n true 1
    eventNow d 4 n.val w.fwCount.toNat
  else d

/-- t_WAKE_VALID of the oldest pending WUP wake ends: unconfirmed, the wake is false (R10, R181, R184). -/
def falseWake (d : Device) (n : ChanNo) (tick : Nat) : Device :=
  if (chan d n).wake.confirming ≠ [] then
    let d := onWake d n (fun w => { w with
      confirming := w.confirming.tail, fwSat := w.fwSat || decide (w.fwCount = 255)
      fwCount := if w.fwCount = 255 then w.fwCount else w.fwCount + 1, fwTimes := (tick :: w.fwTimes).take 15 })
    let d := wakeSleep d n (pack [(0, 5), (8, (chan d n).wake.fwCount.toNat)]) []
    fallback d n tick
  else d

/-- WAKE_VALID_EXPIRY (R181, R182). -/
def execWakeValidExpiry (n : ChanNo) (tick : Nat) (s : State) : Host.Outcome State Fault Refusal :=
  vaonAct s (fun d => falseWake d n tick)

/-- A host write of wake_mode (R183). -/
def hostWakeMode (d : Device) (n : ChanNo) (frameOnly : Bool) : Device :=
  if (chan d n).wake.set.cfg.getLsbD 2 = frameOnly then d
  else
    let d := onWake d n (fun w => { setWakeMode w frameOnly with fwTimes := if frameOnly then w.fwTimes else [] })
    wakeModeEntry d n frameOnly 2

/-- WAKE_MODE_WRITE (R183). -/
def execWakeModeWrite (n : ChanNo) (frameOnly : Bool) (s : State) : Host.Outcome State Fault Refusal :=
  latAct s (fun d => toSentinel d (fun d => hostWakeMode d n frameOnly))

/-- The WUF decoder ends a frame (R179, R181). -/
def decoderFrame (d : Device) (n : ChanNo) (valid : Bool) : Device :=
  onWake d n (fun w =>
    if w.use.cfg.getLsbD 1 && (w.armed || decide (w.confirming ≠ [])) then
      if valid then { w with confirming := [], errCnt := if w.errCnt = 0 then 0 else w.errCnt - 1 }
      else { w with errCnt := if w.errCnt.toNat < 32 then w.errCnt + 1 else w.errCnt }
    else w)

/-- DECODER_FRAME_END (R179). -/
def execDecoderFrameEnd (n : ChanNo) (valid : Bool) (s : State) : Host.Outcome State Fault Refusal :=
  vaonAct s (fun d => decoderFrame d n valid)

end Sys2Proof.Machine
end

