-- ==== Sys2Proof/Machine/PowerOps.lean ====
section
/-! DEFINITION. Power and start-up: the flash slots, the device reset, the choice of what to run, the ledger, the start-up steps,
service and standby (15_service_update.md R377 to R390, 16_power_start.md). -/

namespace Sys2Proof.Machine

/-! ### Slots (R379, R384, R392) -/

/-- The byte at a flash offset of the slots, 0xFF where nothing has been programmed. -/
def flashByte (d : Device) (a : Nat) : Byte := tabGet (0xFF : Byte) d.flash.bytes a

/-- The end of the flash that the device uses: it reads and writes nothing above (R378). -/
def flashTop : Nat := 0x1200000

/-- A 32-bit field of the flash. -/
def flashWord (d : Device) (a : Nat) : Word :=
  BitVec.ofNat 32 ((List.range 4).foldl (fun v i => v + (flashByte d (a + i)).toNat * 256 ^ i) 0)

/-- The flash offset of a slot, false A and true B (R378). -/
def slotBase (b : Bool) : Nat := if b then 0x800000 else 0

/-- A header field of a slot (R379). -/
def slotField (d : Device) (b : Bool) (o : Nat) : Word := flashWord d (slotBase b + o)

/-- A mark of a slot is set (R379). -/
def slotMark (d : Device) (b : Bool) (o : Nat) : Bool := decide (slotField d b o = 0)

/-- The slot's magic is correct. -/
def slotMagic (d : Device) (b : Bool) : Bool := decide (slotField d b 0 = 0x54534C45#32)

/-- The trial seconds programmed in the trial-mark word, before the trial starts. -/
def trialArmed (d : Device) (b : Bool) : Bool := decide (fld (slotField d b 40) 0 16 ≠ 0xFFFF) && !slotMark d b 40

/-- A session writes the slot. -/
def slotWriting (d : Device) (b : Bool) : Bool := d.svc.session.isSome && decide (b = (!d.svc.slot && !d.svc.recovery))

/-- SVC_SLOTx state (R392): without a usable flash the slots count as failed (R377); else the marks of R379 in the order their
life sets them, the latest first (log 36). -/
def slotState (d : Device) (b : Bool) : Nat :=
  if !d.svc.sfdpOk then 5
  else if slotWriting d b then 6
  else if !slotMark d b 32 then 0
  else if slotMark d b 52 then 5
  else if slotMark d b 48 then 4
  else if slotMark d b 44 then 3
  else if trialArmed d b then 2
  else 1

/-- SVC_SLOTx cause: the fail cause of a failed slot (R379, R392). -/
def slotCause (d : Device) (b : Bool) : Nat := if slotState d b = 5 then fld (slotField d b 56) 0 4 else 0

/-- SVC_SLOTx sequence: of a closed slot (R379, R382). -/
def slotSeq (d : Device) (b : Bool) : Word := if slotMark d b 32 then slotField d b 36 else 0

/-! ### Programming the flash (R379, R381) -/

/-- Bytes programmed from a flash offset on: a byte keeps only the bits that both have set, as NOR flash does (R377). -/
def flashProgram (d : Device) (a : Nat) (bs : List Byte) : Device :=
  match bs with
  | [] => d
  | b :: r =>
    flashProgram { d with flash := { d.flash with bytes := tabSet (0xFF : Byte) d.flash.bytes a (flashByte d a &&& b) } } (a + 1) r

/-- A 64 KiB sector erased. -/
def flashErase (d : Device) (sector : Nat) : Device :=
  { d with flash := { d.flash with bytes := d.flash.bytes.filter (fun e => decide (e.1 / 65536 ≠ sector)) } }

/-- A word of a slot's header programmed. -/
def slotProgram (d : Device) (b : Bool) (o : Nat) (v : Word) : Device := flashProgram d (slotBase b + o) (leBytes 4 v.toNat)

/-- A mark of a slot set (R379). -/
def setSlotMark (d : Device) (b : Bool) (o : Nat) : Device := slotProgram d b o 0

/-- A slot fails with a cause: its fail cause, then its failed mark (R379). -/
def failSlot (d : Device) (b : Bool) (cause : Nat) : Device :=
  setSlotMark (slotProgram d b 56 (BitVec.ofNat 32 (0xFFFFFFF0 + cause))) b 52

/-- Bytes of the flash. -/
def flashBytes (d : Device) (a len : Nat) : List Byte := (List.range len).map (fun i => flashByte d (a + i))

/-- A part of a slot, by the header fields of its offset and length, ends where the device still reads (R378; log 131). -/
def partReadable (d : Device) (b : Bool) (o : Nat) : Bool :=
  decide (slotBase b + (slotField d b o).toNat + (slotField d b (o + 4)).toNat ≤ flashTop)

/-- A slot is usable (R384): magic, closed mark, no failed mark, resident code CRC. -/
def slotUsable (d : Device) (b : Bool) : Bool :=
  slotMagic d b && slotMark d b 32 && !slotMark d b 52 && partReadable d b 4
    && decide (crc32c (flashBytes d (slotBase b + (slotField d b 4).toNat) (slotField d b 8).toNat) = slotField d b 12)

/-! ### The device reset (R397, R414) -/

/-- The recogniser of a channel at a device reset: what the sentinel holds stays; an arming that waits for a calibration of the
lattice arms at once with the latest (R175). -/
def resetWake (w : Wake) : Wake :=
  let w := { w with calTaps := 0, calValid := false, calBusy := false, calRaw := 0 }
  if w.armWait then { w with
    armed := !w.preArmed, armWait := false, armedCal := w.sentCal.getD 33#12, use := w.set, errCnt := 0 } else w

/-- The line interface at a device reset: the sentinel's part stays (R60, R397, R398). -/
def resetLine (l : Line) : Line :=
  { l with req := .off, reqWritten := false, rxdly := 0x09#5, calBusy := false, calValid := false, calResult := 0 }

/-- A channel at a device reset. -/
def resetChan (c : Channel) : Channel := { wake := resetWake c.wake, line := resetLine c.line }

/-- A lane port at a device reset: the levels of its balls stay. -/
def resetPort (p : LanePort) : LanePort := { rxLos := p.rxLos, txFault := p.txFault, modAbs := p.modAbs }

/-- A device reset of the lattice die (R397, R414, R416): every register of domain L takes its reset value, the cause sets its bit,
and what the sentinels and the VAON domain hold, the flash and the SRAM stay (log 37). -/
def deviceReset (d : Device) (cause : Nat) : Device :=
  { glb := { revision := d.glb.revision, stby := d.glb.stby, stbyAborted := d.glb.stbyAborted
             rstCause := setBit d.glb.rstCause cause, vaonUp := d.glb.vaonUp, wakeNLow := d.glb.wakeNLow
             vioBLow := d.glb.vioBLow, free := d.glb.free }
    sent := d.sent
    ch := d.ch.map resetChan
    sram := d.sram
    ring := { east := resetPort d.ring.east, west := resetPort d.ring.west, mirror := resetPort d.ring.mirror }
    flash := d.flash }

/-! ### Update events (R246, R391) -/

/-- An UPDATE event (R391). -/
def updateEvent (d : Device) (kind : Nat) (slot : Bool) (cause : Nat) (owner : Nat) : Device :=
  eventNow d 7 0xFFFF (kind + 16 * slot.toNat + 256 * cause + 65536 * owner)

/-- The resident code of a slot fails it: the failed mark with its cause, then a restart; the event waits for the other slot's code
to join (R364, R386; log 38). -/
def failAndRestart (d : Device) (b : Bool) (cause : Nat) : Device :=
  onSvc (deviceReset (failSlot d b cause) 3) (fun s => { s with failEvent := some (b, BitVec.ofNat 4 cause) })

/-! ### The ledger (R387 to R389) -/

/-- Ledger copy c. -/
def ledgerAt (d : Device) (c : Bool) : Ledger := if c then d.flash.ledger1 else d.flash.ledger0

/-- Ledger copy c written. -/
def ledgerPut (d : Device) (c : Bool) (l : Ledger) : Device :=
  { d with flash := if c then { d.flash with ledger1 := l } else { d.flash with ledger0 := l } }

/-- The sequence of the running slot. -/
def runSeq (d : Device) : BitVec 32 := slotField d d.svc.slot 36

/-- The ledger format version that the running slot's code writes (R379). -/
def runVersion (d : Device) : BitVec 16 := (slotField d d.svc.slot 28).setWidth 16

/-- The running code can read a ledger's format version: surely the one it writes; of any other the spec does not say (log 39). -/
def readsVersion (d : Device) (l : Ledger) : Bool :=
  decide (l.version = runVersion d) || Config.readsOther (runVersion d) l.version

/-- The flash offset at which ledger copy c begins (R378). -/
def ledgerOffset (c : Bool) : Nat := if c then 0x1100000 else 0x1000000

/-- The content of a copy as the bytes its version lays out (R387). -/
def ledgerBody (l : Ledger) : List Byte := Config.ledgerContent l.version (l.tag.getD []) l.settings l.cal

/-- A mark as its word reads: programmed or erased (R379, R387). -/
def markWord (m : Bool) : Nat := if m then 0 else 0xFFFFFFFF

/-- The 64-byte header of a copy as the flash holds it from ledgerOffset on (R387). -/
def ledgerHeader (l : Ledger) : List Byte :=
  leBytes 4 l.magic.toNat ++ leBytes 2 l.version.toNat ++ leBytes 2 (if l.magic = 0xFFFFFFFF#32 then 0xFFFF else 0)
    ++ leBytes 4 l.seq.toNat ++ leBytes 4 l.slotSeq.toNat ++ leBytes 4 l.length.toNat ++ leBytes 4 l.crc.toNat
    ++ leBytes 4 (markWord l.valid) ++ leBytes 4 (markWord l.confirmed) ++ leBytes 4 (markWord l.retired) ++ List.replicate 28 0xFF

/-- A copy is readable (R387): magic, CRC and valid mark. -/
def ledgerReadable (l : Ledger) : Bool :=
  decide (l.magic = 0x474C4C45#32) && l.valid && decide (l.crc = crc32c (ledgerBody l))

/-- A copy stands confirmed (R387). -/
def ledgerStands (l : Ledger) : Bool := ledgerReadable l && l.confirmed && !l.retired

/-- The copy was written by the running slot during its trial, the last one started, and not confirmed (R387, R388): a copy that a failed trial
left is none, whatever its slot sequence (log 162). -/
def ledgerOwn (d : Device) (l : Ledger) : Bool :=
  ledgerReadable l && !l.confirmed && decide (l.slotSeq = runSeq d) && decide (l.trialNo = d.flash.trialNo)

/-- The copy in use (R387): in a trial the one the running slot wrote, else the confirmed one of the later sequence; of two half the
count apart copy 0 (R11; log 121). -/
def ledgerChoice (d : Device) : Option Bool :=
  let l0 := d.flash.ledger0
  let l1 := d.flash.ledger1
  if d.svc.trial && ledgerOwn d l0 then some false
  else if d.svc.trial && ledgerOwn d l1 then some true
  else if ledgerStands l0 && ledgerStands l1 then some (laterThan l1.seq l0.seq)
  else if ledgerStands l0 then some false
  else if ledgerStands l1 then some true
  else none

/-- The copy that the running code loads from: the copy in use, where it can read its version; else, outside a trial, the other one where
that has been confirmed and it can read it (R388, R389; log 125). -/
def ledgerPick (d : Device) : Option Bool :=
  match ledgerChoice d with
  | none => none
  | some c =>
    let o := ledgerAt d (!c)
    if readsVersion d (ledgerAt d c) then some c
    else if !d.svc.trial && ledgerReadable o && o.confirmed && readsVersion d o then some (!c)
    else none

/-- The copy with the older sequence (R389): an unreadable one has none and is taken first, copy 0 before copy 1; of two sequences half the
count apart copy 0 (R11; log 121). -/
def olderCopy (d : Device) : Bool :=
  if ledgerReadable d.flash.ledger0 && ledgerReadable d.flash.ledger1 then laterThan d.flash.ledger0.seq d.flash.ledger1.seq
  else ledgerReadable d.flash.ledger0

/-- The copy that a ledger write writes (R388, R389): in a trial its own copy again, else the one that is not loaded from; with none to
load from the one with the older sequence. -/
def ledgerTarget (d : Device) : Bool :=
  if d.svc.ledTrial then d.svc.ledCopy
  else match ledgerPick d with
  | some c => !c
  | none => olderCopy d

/-- The sequence that a ledger write writes (R388): that of the copy in use + 1, else of the later readable copy, else of no copy, 0
(log 125). -/
def nextLedgerSeq (d : Device) : BitVec 32 :=
  match ledgerChoice d with
  | some c => (ledgerAt d c).seq + 1
  | none =>
    let l := ledgerAt d (!olderCopy d)
    if ledgerReadable l then l.seq + 1 else 1

/-- A ledger write begins (R388, R409): it takes its snapshot of the tag area and erases the copy it is to write. One write runs at
a time; a demand during it leaves the change pending. -/
def ledgerBegin (d : Device) : Device :=
  if d.svc.ledBusy.isSome then { d with glb := { d.glb with tagPending := true } }
  else
    let c := ledgerTarget d
    let d := { d with
      svc := { d.svc with ledBusy := some d.tag, ledTo := c, ledNext := nextLedgerSeq d }, glb := { d.glb with tagPending := false } }
    ledgerPut d c {}

/-- The copy in use is confirmed and the other retired (R388). -/
def ledgerConfirm (d : Device) (c : Bool) : Device :=
  let d := ledgerPut d c { ledgerAt d c with confirmed := true }
  ledgerPut d (!c) { ledgerAt d (!c) with retired := true }

/-- The SVC registers of the copy in use (R392). -/
def ledgerShow (d : Device) (c trial : Bool) : Device :=
  let l := ledgerAt d c
  { d with svc := { d.svc with ledVersion := l.version, ledCopy := c, ledTrial := trial, ledSeq := l.seq } }

/-- A copy as a ledger write writes it, its valid mark programmed last (R387, R388). -/
def newLedger (d : Device) (snap : Tab Word) : Ledger :=
  let l : Ledger := { magic := 0x474C4C45#32, version := runVersion d, seq := d.svc.ledNext, slotSeq := runSeq d, tag := some snap
                      settings := d.svc.settings, cal := d.svc.cal, valid := true, trialNo := d.flash.trialNo }
  { l with length := BitVec.ofNat 32 (ledgerBody l).length, crc := crc32c (ledgerBody l) }

/-- A ledger write ends (R388, R409): the copy stands with its valid mark; outside a trial it is confirmed and the other retired. -/
def ledgerWritten (d : Device) (snap : Tab Word) : Device :=
  let c := d.svc.ledTo
  let d := ledgerPut d c (newLedger d snap)
  let d := if d.svc.trial then d else ledgerConfirm d c
  let d := ledgerShow d c d.svc.trial
  { d with tag := tabSet (0 : Word) d.tag 10 d.svc.ledNext, glb := { d.glb with persisted := true } }

/-! ### Standby (R404 to R406) -/

/-- A channel at standby entry (R404): a HEAD in NORMAL and IDLE starts a ballot, a follower (R170) and what this member does not hold are left
alone, every other channel that is awake is to sleep. -/
def standbyChan (d : Device) (n : ChanNo) : Device :=
  let c := chan d n
  if mayDrive c.fe.role && shadowFor d n then d
  else if decide (c.fe.role = .head) && c.slp.planValid && decide (c.line.state = .normal) && decide (c.slp.phase = .idle)
  then ballotGo d n
  else if mayPreArm d n then d
  else if decide (c.line.state = .normal) || decide (c.line.state = .listen) || decide (c.line.state = .standby)
  then lineRequest d n .sleep
  else d

/-- The standby request is in force at the four sentinels (R404, R405). -/
def standbyInForce (d : Device) : Device :=
  let d := { d with glb := { d.glb with stby := true, stbyWait := false } }
  let d := forChans d (List.finRange 64) standbyChan
  (List.finRange 4).foldl inhCheck d

/-- request: a pending tag-area change goes to the ledger first (R404). -/
def standbyRequest (d : Device) : Device :=
  if d.svc.ledBusy.isSome || d.glb.tagPending then
    let d := { d with glb := { d.glb with stbyWait := true } }
    if d.svc.ledBusy.isSome then d else ledgerBegin d
  else standbyInForce d

/-- cancel (R406). -/
def standbyCancel (d : Device) : Device := { d with glb := { d.glb with stby := false, stbyWait := false } }

/-- The ledger write in progress ends (R388, R404, R409): a flash that fails leaves the change pending; a change made meanwhile is
written next; a standby entry that waited goes on. -/
def ledgerDone (d : Device) : Device :=
  match d.svc.ledBusy with
  | none => d
  | some snap =>
    if d.flash.broken then { d with svc := { d.svc with ledBusy := none, flashErr := true }, glb := { d.glb with tagPending := true } }
    else
      let d := ledgerWritten d snap
      let d := { d with svc := { d.svc with ledBusy := none } }
      if d.glb.tagPending then ledgerBegin d
      else if d.glb.stbyWait then standbyInForce d
      else d

/-! ### Start-up (R384, R400) -/

/-- A slot whose trial began and was not committed (R384 row 2). -/
def trialBroken (d : Device) (b : Bool) : Bool := slotUsable d b && slotMark d b 44 && !slotMark d b 48

/-- Row 2: a trial that has ended in a restart fails its slot. -/
def failTrial (d : Device) (b : Bool) : Device :=
  if trialBroken d b then
    onSvc (failSlot d b 1) (fun s => { s with failEvent := some (b, 1) })
  else d

/-- A usable slot with an armed trial (row 3). -/
def trialReady (d : Device) (b : Bool) : Bool := slotUsable d b && trialArmed d b

/-- A usable committed slot (row 4). -/
def committed (d : Device) (b : Bool) : Bool := slotUsable d b && slotMark d b 48

/-- What mask ROM runs by rows 3 to 5: the slot and whether it is a trial, or none for recovery mode. Of two committed slots whose
sequences lie half the count apart neither is the later, and slot A runs (R11; log 121). -/
def slotChoice (d : Device) : Option (Bool × Bool) :=
  if trialReady d false then some (false, true)
  else if trialReady d true then some (true, true)
  else if committed d false && committed d true then some (laterThan (slotField d true 36) (slotField d false 36), false)
  else if committed d false then some (false, false)
  else if committed d true then some (true, false)
  else none

/-- The trial that starts has the next number (R387; log 162). -/
def numberTrial (d : Device) : Device := { d with flash := { d.flash with trialNo := d.flash.trialNo + 1 } }

/-- A trial starts (R384 row 3): its timer from the trial seconds, its marks. -/
def startTrial (d : Device) (b : Bool) : Device :=
  let secs := fld (slotField d b 40) 0 16
  let d := numberTrial (setSlotMark (setSlotMark d b 40) b 44)
  { d with svc := { d.svc with trial := true, trialEnd := some (rawAdd d.tim.raw (secs * 1000 * msTicks)) } }

/-- The tag area from TAG_DEFAULTS (R357). -/
def tagDefaults (d : Device) (ss : List Section) : Device :=
  match ss.find? (fun s => decide (s.stype = 0xD)) with
  | none => d
  | some s =>
    let o := b2 s.body 0
    (List.range (b2 s.body 2)).foldl (fun d i =>
      let a := o + i
      if 40 ≤ a ∧ a < 64 then d
      else
        let old := tagWord d (a / 4)
        let w := (old &&& ~~~ (0xFF#32 <<< (8 * (a % 4)))) ||| BitVec.ofNat 32 (b1 s.body (4 + i) * 2 ^ (8 * (a % 4)))
        { d with tag := tabSet (0 : Word) d.tag (a / 4) w }) d

/-- The structure image of a slot (R379): nothing where its header places it above the flash that the device reads (R378). -/
def slotImage (d : Device) (b : Bool) : List Byte :=
  if !partReadable d b 16 then [] else flashBytes d (slotBase b + (slotField d b 16).toNat) (slotField d b 20).toNat

/-- The sections of an image by its framing, for TAG_DEFAULTS (R357), which is applied before the checks that look at the tag area. -/
def imageSections (img : List Byte) : List Section := (walk (img.take (b4 img 8)) (b4 img 8) 32 (b4 img 8 / 12 + 1)).1

/-- Step 3, a ledger copy that the code reads: the tag area, settings and time calibration, and the registers (R388, R400). -/
def loadLedger (d : Device) (c : Bool) : Device :=
  let d := ledgerShow d c (d.svc.trial && ledgerOwn d (ledgerAt d c))
  let d := onSvc d (fun s => { s with settings := (ledgerAt d c).settings, cal := (ledgerAt d c).cal })
  match (ledgerAt d c).tag with
  | some t => { d with tag := tabSet (0 : Word) t 10 (ledgerAt d c).seq }
  | none => d

/-- At the boot of a committed slot, a copy written by itself and not confirmed is confirmed (R388). -/
def confirmOwn (d : Device) : Device :=
  if d.svc.trial then d
  else if ledgerOwn d d.flash.ledger0 then ledgerConfirm d false
  else if ledgerOwn d d.flash.ledger1 then ledgerConfirm d true
  else d

/-- Step 3 (R387 to R389, R400): the device, or none when the trial's code cannot read the ledger and fails the trial. Outside a trial,
code that can read neither copy begins a new one from the defaults; a trial writes none at its start. -/
def ledgerStep (d : Device) (ss : List Section) : Option Device :=
  let d := confirmOwn d
  match ledgerPick d with
  | some c => some (if (ledgerAt d c).tag.isSome then loadLedger d c else tagDefaults (loadLedger d c) ss)
  | none =>
    if d.svc.trial && (ledgerChoice d).isSome then none
    else
      let d := tagDefaults d ss
      some (if d.svc.trial then d else ledgerBegin { d with svc := { d.svc with ledDefaulted := true } })

/-- The station number in use from the tag area, and no_station (R403, R428). -/
def takeStation (d : Device) : Device :=
  if stationValid d then { d with ring := { d.ring with station := BitVec.ofNat 10 (fld (tagWord d 0) 0 16), numbered := true } }
  else { d with glb := { d.glb with noStation := true } }

/-- The lanes start: TX_DISABLE released, the mirror lane trains (R227, R400). -/
def lanesStart (d : Device) : Device :=
  let up := fun (p : LanePort) => { p with txDisable := false }
  let d := onPort (onPort (onPort d .east up) .west up) .mirror up
  trainIfPresent d .mirror

/-- Step 4 (R185, R364, R400): the full load, and ring_en from RING_PLAN. -/
def imageStep (d : Device) (b : Bool) (ss : List Section) (tick : Nat) : Device :=
  let d := fullLoad ss (b4 (slotImage d b) 20) tick d
  let d := ringEnable d (decide (b1 (bodyOf ss 9 0) 0 % 2 = 1))
  { d with glb := { d.glb with phase := if d.ring.en then 4 else 3 } }

/-- The resident code's own check: in a trial boot a fault that it finds fails the trial (R386; log 126). -/
def ownCheck (d : Device) (b : Bool) : Device :=
  if d.svc.trial then
    let (k, d) := takeFree d
    if Config.codeCheckFails k then failAndRestart d b 4 else d
  else d

/-- Step 4 for the running slot b, its image: a refused image fails the slot (R364, R386), and a trial's code checks
itself. -/
def runImage (d : Device) (b : Bool) (tick : Nat) : Device :=
  let v := validate d (slotImage d b) (slotImage d b).length false true
  if v.1.isSome then failAndRestart d b 3 else ownCheck (imageStep d b v.2 tick) b

/-- Step 1 for slot b: it runs, as a trial where it is one, and the lanes start (R384, R400). -/
def slotStarts (d : Device) (b trial : Bool) : Device :=
  let d := onSvc d (fun s => { s with slot := b })
  lanesStart (if trial then startTrial d b else d)

/-- The ledger's step has answered: the slot goes on, or fails (R386, R389). -/
def ledgerTaken (d : Device) (b : Bool) (x : Option Device) : Device :=
  match x with
  | none => failAndRestart d b 2
  | some t => takeStation { t with glb := { t.glb with phase := 3 } }

/-- A slot is chosen: step 2 begins (R384, R400). -/
def runSlot (d : Device) (b trial : Bool) (tick : Nat) : Device :=
  let d := slotStarts d b trial
  { d with glb := { d.glb with phase := 1, boot := some ⟨b, tick⟩ } }

/-- A start-up goes on by one step: CODE ends, LEDGER ends, IMAGE ends; a refused image fails the slot (R364, R386, R400; log 140). -/
def bootStep (d : Device) : Device :=
  match d.glb.boot with
  | none => d
  | some x =>
    if d.glb.phase = 1 then { d with glb := { d.glb with phase := 2 } }
    else if d.glb.phase = 2 then ledgerTaken d x.slot (ledgerStep d (imageSections (slotImage d x.slot)))
    else runImage { d with glb := { d.glb with boot := none } } x.slot x.tick

/-- The lattice is up, with the island PLL locked (R396); sys_lock then reads 1 until the next reset, also while the PLL follows a new
reference (R25, R31; log 122). -/
def latticeUp (d : Device) : Device :=
  { d with glb := { d.glb with latUp := true }, lat := { d.lat with sysLock := true } }

/-- Mask ROM has read the flash's parameters and its slots (R384). -/
def flashProbed (d : Device) : Device :=
  onSvc d (fun s => { s with
    density := d.flash.density
    sfdpOk := d.flash.sfdp && decide (32 ≤ d.flash.density.toNat)
    slotsRead := true })

/-- The lattice reset releases and step 1 of the start-up runs (R384, R390, R398, R400). -/
def startUp (d : Device) (recoverLow : Bool) (tick : Nat) : Device :=
  let d := flashProbed (latticeUp (forChans d (List.finRange 64) (fun d n => setToken d n false)))
  if recoverLow ∨ d.svc.sfdpOk = false then onSvc d (fun s => { s with recovery := true, failEvent := none })
  else
    let d := failTrial (failTrial d false) true
    match slotChoice d with
    | none => onSvc d (fun s => { s with recovery := true })
    | some (b, t) => runSlot d b t tick

/-- Step 7 (R50, R278, R400, R402): line_req of every channel from LINE_SET, the tokens, the phase. -/
def serviceStart (d : Device) : Device :=
  let d := forChans d (List.finRange 64) releaseChan
  { d with glb := { d.glb with
    inService := true, timeOk := d.glb.acquired || isMaster d, phase := 6
    serviceMs := BitVec.ofNat 10 (min 0x3FF (d.tim.raw.toNat / msTicks)) } }

/-- Step 7 is due: time is acquired, 600 ms have passed, or the ring is not enabled (R402). -/
def serviceDue (d : Device) : Bool :=
  d.glb.loaded && !d.glb.inService
    && (((d.glb.acquired || isMaster d) && decide (d.glb.phase = 5)) || decide (600 * msTicks ≤ d.tim.raw.toNat) || !d.ring.en)

/-- 2 ms in JOINING are over: JOINED, TOPO, and what waited for the ring (R229, R386, R400). -/
def joinComplete (d : Device) : Device :=
  if d.ring.join ≠ .joining ∨ (d.tim.raw - d.ring.joinRaw).toNat < 2 * msTicks then d
  else
    let first := decide (d.glb.ringMs = 0x3FF#10)
    let d := sendTopo { d with ring := { d.ring with
      join := .joined, joinRaw := d.tim.raw, topoEast := !d.ring.wrapEast, topoWest := !d.ring.wrapWest } }
    let d := if first then { d with glb := { d.glb with
      ringMs := BitVec.ofNat 10 (min 0x3FF (d.tim.raw.toNat / msTicks))
      phase := if d.glb.phase = 4 then 5 else d.glb.phase } } else d
    let d := refSelect (if isMaster d then acquireTime d else d)
    let d := match d.svc.failEvent with
      | some (b, c) => updateEvent { d with svc := { d.svc with failEvent := none } } 6 b c.toNat 0
      | none => d
    let d := if first && d.svc.trial then updateEvent d 4 d.svc.slot 0 0 else d
    formStep d

end Sys2Proof.Machine
end

