-- ==== Sys2Proof/Machine/TimeFamily.lean ====
section
/-! DEFINITION. The meanings of the time unit's commands (08_fabric_time.md). -/

namespace Sys2Proof.Machine

/-- TIME_NOW_READ (R191): the fraction is answered, the integer nanoseconds are latched. -/
def execTimeNowRead (s : State) : Host.Outcome State Fault Refusal :=
  latAct s (fun d => let (w, d) := nowRead d; answerWord d w)

/-- OFFSET_READ (R191). -/
def execOffsetRead (s : State) : Host.Outcome State Fault Refusal :=
  latAct s (fun d => let (w, d) := offsRead d; answerWord d w)

/-- OFFSET_INC_COMMIT (R192, R194, R196, R213). -/
def execOffsetIncCommit (src : Src) (hi : Word) (s : State) : Host.Outcome State Fault Refusal :=
  latAct s (fun d => offsIncCommit d src hi)

/-- RATE_INC_COMMIT (R192, R194, R196, R213). -/
def execRateIncCommit (src : Src) (hi : Word) (s : State) : Host.Outcome State Fault Refusal :=
  latAct s (fun d => rateIncCommit d src hi)

/-- INCREMENT_APPLY (R192, R193, R195, R198): the T edge at which the oldest committed increment is applied; with none on its way there is
nothing to apply. -/
def execIncrementApply (s : State) : Host.Outcome State Fault Refusal :=
  latAct s (fun d => if d.tim.incs = [] then d else tEdge d)

/-- CONVERSION_START (R199). -/
def execConversionStart (hi : Word) (s : State) : Host.Outcome State Fault Refusal :=
  latAct s (fun d => convPut d (.start hi))

/-- CONVERSION_DONE (R199). -/
def execConversionDone (s : State) : Host.Outcome State Fault Refusal := latAct s convComplete

/-- BEACON_SEND (R204, R205): every beacon_ms the time master queues one beacon for each ring, both with one sequence, which leave at a
coincidence edge (R202); a beacon that would leave by a wrapped side is wrapped at once (R232). -/
def execBeaconSend (s : State) : Host.Outcome State Fault Refusal :=
  latAct s (fun d =>
    if isMaster d && decide (d.ring.join = .joined) && passed d d.tim.beaconTx (d.tim.beaconMs.toNat * msTicks) then
      let d := { d with tim := { d.tim with beaconTx := some d.tim.raw } }
      let (c, d) := newCell d 16 0 0 []
      let c := { c with bcast := true }
      let d := queueOut d qTime .east { c with payload := beaconBody d false d.ring.wrapEast.toNat }
      queueOut d qTime .west { c with payload := beaconBody d true d.ring.wrapWest.toNat }
    else d)

/-- BEACON (R206, R207, R208): the header arrives k cycles before the edge it is counted to. The master removes its own beacons
and forwards none of others. -/
def execBeacon (at_ : Side) (c : RCell) (rc : Raw) (k : Fin 125) (s : State) : Host.Outcome State Fault Refusal :=
  latAct s (fun d => match arrive d (sidePort at_) c with
    | (none, d) => d
    | (some c, d) =>
      let a := arrivalRaw (port d (sidePort at_)) rc k.val
      let rate := (genAt d a).rate
      if ownCell d c = true ∧ d.ring.join ≠ .collision ∧ (isMaster d = true ∨ c.wrapOdd = false) then
        if isMaster d then masterHeard d else d
      else
        let d := if c.src = d.tim.masterSt then takeBeacon d at_ c a
          else { d with tim := { d.tim with evt := setBit d.tim.evt 2 } }
        if isMaster d then d else forwardBeacon d at_ c rate)

/-- PDELAY_REQ_SEND (R202, R209): a port that has measured Φ and u sends a request to its neighbour every pdelay_ms; over the mirror lane,
in cells of type 0x2D that take mirror transmit, the exchange measures PAIR_RAWDIFF (R213, R256, R282; log 21). -/
def execPdelayReqSend (p : Port) (s : State) : Host.Outcome State Fault Refusal :=
  latAct s (fun d =>
    if exchanges d p && passed d d.tim.pdAt[portIdx p] (d.tim.pdelayMs.toNat * msTicks) then
      let d := { d with tim := { d.tim with pdAt := d.tim.pdAt.set (portIdx p) (some d.tim.raw) } }
      match p with
      | .mirror => queueDelay d .request
      | .east =>
        let (c, d) := newCell d 17 0 0 (leBytes 2 1)
        queueSide d qTime .east c
      | .west =>
        let (c, d) := newCell d 17 0 0 (leBytes 2 1)
        queueSide d qTime .west c
    else d)

/-- PDELAY_REQ (R209): taken without forwarding, answered from the same port; the response carries the arrival until it leaves,
when it becomes the turnaround. -/
def execPdelayReq (p : Port) (c : RCell) (rc : Raw) (k : Fin 125) (s : State) : Host.Outcome State Fault Refusal :=
  latAct s (fun d => match arriveAt d p c with
    | (none, d) => d
    | (some c, d) =>
      if (port d p).st = .down ∨ (port d p).st = .miswired then d
      else
        let t2 := arrivalRaw (port d p) rc k.val
        let body := leBytes 2 1 ++ leBytes 6 0 ++ leInt 8 t2 ++ leBytes 2 c.seq.toNat
        match p with
        | .mirror => queueDelay d (.response (BitVec.ofInt 64 t2) c.seq)
        | .east =>
          let (r, d) := newCell d 18 0 0 body
          queueSide d qTime .east r
        | .west =>
          let (r, d) := newCell d 18 0 0 body
          queueSide d qTime .west r)

/-- PDELAY_RESP (R209): the link delay of the port; on a ring port the first exchange completes its training (R227); on the
mirror lane PAIR_MIR_DELAY and, by the first exchange of a training, PAIR_RAWDIFF, which an active takes from its shadow (R213, R303, R434). -/
def execPdelayResp (p : Port) (c : RCell) (rc : Raw) (k : Fin 125) (s : State) : Host.Outcome State Fault Refusal :=
  latAct s (fun d => match arriveAt d p c with
    | (none, d) => d
    | (some c, d) =>
      match pdReqOf d p with
      | none => d
      | some (q, t1) =>
        if q.toNat ≠ leAt c.payload 16 2 ∨ (port d p).st = .down ∨ (port d p).st = .miswired then d
        else
          let t4 := arrivalRaw (port d p) rc k.val
          let x := (t4 - (t1.toNat : Int) * 65536) - (leAt c.payload 8 8 : Int)
          let (v, d) := fitDelay d (x * (d.tim.rate.toNat : Int) / 2199023255552)
          let d := setPdReq d p none
          match p with
          | .mirror =>
            let t3 : Int := (leAt c.payload 24 8 : Int) * 65536
            let own := d.pair.rawDone || decide (d.pair.role = .active)
            { d with pair := { d.pair with
              mirDelay := v, rawDone := true, rawDiff := if own then d.pair.rawDiff else BitVec.ofInt 64 (t3 + x / 2 - t4) } }
          | .east =>
            let d := setLinkDelay d .east v
            if (port d .east).st = .training ∧ (port d .east).phiDone ∧ (port d .east).nbrValid then portUp d .east else d
          | .west =>
            let d := setLinkDelay d .west v
            if (port d .west).st = .training ∧ (port d .west).phiDone ∧ (port d .west).nbrValid then portUp d .west else d)

/-- No beacon from the station in TIM_MASTER has arrived for loss_n × beacon_ms (R212). -/
def beaconsGone (d : Device) : Bool :=
  decide (d.tim.lossN.toNat * d.tim.beaconMs.toNat * msTicks ≤ (d.tim.raw - d.tim.beaconAt).toNat)

/-- The time master is lost: master_lost, both estimates not valid, the island PLL holds over (R30, R212). -/
def masterGone (d : Device) : Device :=
  if beaconsGone d then
    refSelect { d with tim := { d.tim with
      masterLost := true, cw := { d.tim.cw with valid := false }, ccw := { d.tim.ccw with valid := false } } }
  else d

/-- MASTER_LOST (R212): it comes about once loss_n × beacon_ms have passed. -/
def execMasterLost (s : State) : Host.Outcome State Fault Refusal := latAct s masterGone

/-- A write of TIM_MASTER: another station is a master change (R212), from which the wait for its beacons counts, and the island reference
is selected again (R30). -/
def masterWrite (d : Device) (station : BitVec 10) : Device :=
  if station = d.tim.masterSt then d
  else
    let d := { d with tim := { d.tim with
      masterSt := station, beaconAt := d.tim.raw, cw := { d.tim.cw with valid := false }, ccw := { d.tim.ccw with valid := false }, skewValid := false } }
    refSelect d

/-- TIME_MASTER_WRITE (R212, R30). -/
def execTimeMasterWrite (station : BitVec 10) (s : State) : Host.Outcome State Fault Refusal :=
  latAct s (fun d => masterWrite d station)

end Sys2Proof.Machine
end

