-- ==== Sys2Proof/Machine/RegRead.lean ====
section
/-! DEFINITION. What a read of each register answers, block by block (R412, R418, R421 to R423, R425 to R440): 32-bit registers,
64-bit registers by the offset of their low half, and the reads that do something. -/

namespace Sys2Proof.Machine

/-! ### The device window (R412, R426) -/

/-- The blocks of the window: first offset and the offset after the last (R412, R426). -/
def blockExtents : List (Nat × Nat) :=
  [ (0x0, 0x800), (0x10000, 0x11000), (0x20000, 0x21000), (0x100000, 0x140000), (0x200000, 0x201000), (0x400000, 0x401000),
    (0x500000, 0x504000), (0x580000, 0x581000), (0x600000, 0x630000), (0x700000, 0x701000), (0x800000, 0x880000),
    (0x1000000, 0x1001000), (0x1100000, 0x1101000), (0x10000000, 0x11000000) ]

/-- An offset lies in a block. -/
def inBlock (a : Nat) : Bool := blockExtents.any (fun e => decide (e.1 ≤ a) && decide (a < e.2))

/-- An offset is mapped: in a block, in recovery mode only in GLB and SVC (R373, R439). -/
def mapped (d : Device) (a : Nat) : Bool :=
  inBlock a && (!d.svc.recovery || (decide (0x10000 ≤ a) && decide (a < 0x11000)) || (decide (0x1100000 ≤ a) && decide (a < 0x1101000)))

/-! ### TAG, GLB, LAT, JRN -/

/-- TAG (R408, R421): offsets 0x2C to 0x3C are reserved. -/
def tagRead (d : Device) (o : Nat) : Word := if 0x2C ≤ o ∧ o < 0x40 then 0 else tagWord d (o / 4)

/-- GLB_SENTd_CTRL and GLB_SENTd_STAT (R71). -/
def sentRead (d : Device) (o : Nat) : Word :=
  let s := d.sent[(Fin.ofNat 4 (o / 16) : Fin 4)]
  if o % 16 = 0 then s.orphanMs.setWidth 32
  else if o % 16 = 4 then pack [(0, s.hbOk.toNat), (1, s.inhReq.toNat), (2, s.ot.toNat), (3, s.vlineOk.toNat), (4, s.wakeNSeen.toNat)]
  else 0

/-- GLB (R254, R411, R418 to R420). -/
def glbRead (d : Device) (o : Nat) : Word :=
  let g := d.glb
  if 0x100 ≤ o ∧ o < 0x140 then sentRead d (o - 0x100)
  else match o with
  | 0x00 => pack [(0, g.revision.toNat), (16, 0x6420)]
  | 0x04 => g.err.setWidth 32
  | 0x08 => g.errOffs.setWidth 32
  | 0x0C => pack [(0, g.errStation.toNat), (12, g.errSource.toNat)]
  | 0x10 => cntWord g.eccCorr
  | 0x14 => cntWord g.eccUncorr
  | 0x24 => pack [(0, g.stby.toNat), (2, g.stbyAborted.toNat)]
  | 0x2C => g.rstCause.setWidth 32
  | 0x30 => pack [(0, g.phase.toNat), (3, g.timeOk.toNat), (4, g.noStation.toNat), (8, g.ringMs.toNat), (18, g.serviceMs.toNat)]
  | 0x34 => pack [(1, g.tagPending.toNat), (2, g.persisted.toNat)]
  | 0x40 => pack [(0, g.evtDest.toNat), (15, g.evtValid.toNat)]
  | 0x44 => g.evtPend.setWidth 32
  | 0x48 => g.evtMask.setWidth 32
  | 0x4C => g.evtSeq.setWidth 32
  | _ => 0

/-- LAT (R25, R422). -/
def latRead (d : Device) (o : Nat) : Word :=
  let l := d.lat
  match o with
  | 0x0 => pack [(0, l.tempo.toNat), (16, l.tempoValid.toNat)]
  | 0x4 => l.peak.setWidth 32
  | 0x8 => pack [(0, l.refSel.toNat), (2, l.sysLock.toNat), (3, d.ring.east.blockLock.toNat), (4, d.ring.west.blockLock.toNat),
      (5, d.ring.mirror.blockLock.toNat), (8, l.slowSeen.toNat), (9, l.refSwitched.toNat)]
  | 0xC => pack [(0, l.econ.toNat), (8, l.econSeen.toNat)]
  | _ => 0

/-- JRN_CENSUSn (R153). -/
def census (d : Device) (n : ChanNo) : Word :=
  let j := (chan d n).jn
  pack [(0, jPkts d n), (29, (decide (j.uncorr.count ≠ 0)).toNat), (30, j.markLost.toNat), (31, (decide (j.ovf.count ≠ 0)).toNat)]

/-- A bit for every channel. -/
def chanBits (f : ChanNo → Bool) : BitVec 64 := (List.finRange 64).foldl (fun m n => if f n then setBit m n.val else m) 0

/-- JRN_READY (R153). -/
def jrnReady (d : Device) : BitVec 64 := chanBits (fun n => decide (jPkts d n ≠ 0))

/-- JRN_ATTN (R425). -/
def jrnAttn (d : Device) : BitVec 64 :=
  chanBits (fun n =>
    let j := (chan d n).jn
    decide (j.ovf.count ≠ 0) || decide (j.uncorr.count ≠ 0) || j.markLost)

/-! ### The channel blocks (R70, R105, R124, R152, R188, R423, R424) -/

/-- The code of a channel role (R105). -/
def feRoleCode (r : Role) : Nat :=
  match r with
  | .off => 0
  | .head => 1
  | .member => 2
  | .listen => 3

/-- The code of a mode (R105). -/
def modeCode (m : Mode) : Nat :=
  match m with
  | .idle => 0
  | .monitoring => 1
  | .driving => 2

/-- The code of an entry's state (R106). -/
def lqCode (s : LqSt) : Nat :=
  match s with
  | .free => 0
  | .waiting => 1
  | .ready => 2
  | .onBus => 3

/-- CHn_LQ_COUNT (R124): the ON_BUS entry is the one whose frame is on the bus, else the sent one whose TX_ECHO entry is to come. -/
def lqCountWord (d : Device) (n : ChanNo) : Word :=
  let es := (chan d n).lq.ents.map (·.2)
  let on := (lqOnBus d n).or ((lqListed d n).find? (fun i => decide ((lqEnt d n i).st = .onBus)))
  let (ix, lat) := match on with
    | some i => (i.val, (lqEnt d n i).cancel)
    | none => (0, false)
  pack [(0, (es.filter (fun e => decide (e.st = .waiting))).length), (8, (es.filter (fun e => decide (e.st = .ready))).length),
    (16, ix), (23, on.isSome.toNat), (24, lat.toNat)]

/-- CHn_LQ_MAPm (R124). -/
def lqMapWord (d : Device) (n : ChanNo) (m : Nat) : Word :=
  pack ((List.range 16).map (fun j => (2 * j, lqCode (tabGet ({} : LqEnt) (chan d n).lq.ents (16 * m + j)).st)))

/-- CHn_JMARK (R152). DESIGN CHOICE: span reads 0 while no mark is valid (log 143). -/
def jmarkWord (j : Journal) : Word :=
  pack [(0, j.mark.isSome.toNat), (1, j.markLost.toNat), (2, j.rewindRefused.toNat), (8, j.rd - j.mark.getD j.rd)]

/-- The frame engine's registers, offsets 0x000 to 0x030 (R105, R424). -/
def feRead (d : Device) (n : ChanNo) (o : Nat) : Word :=
  let f := (chan d n).fe
  match o with
  | 0x00 => BitVec.ofNat 32 (feRoleCode f.role)
  | 0x04 => f.feCfg.setWidth 32
  | 0x08 => f.nbt
  | 0x0C => f.dbt
  | 0x10 => pack [(0, f.tdcMeas.toNat), (8, f.tdcValid.toNat)]
  | 0x14 => pack [(0, f.tec.toNat), (16, f.recv.toNat), (24, fcCode f.fcState), (26, (fcWarn f).toNat), (27, modeCode (modeOf d n))]
  | 0x18 => pack [(1, f.recovering.toNat), (8, f.recovCnt.toNat)]
  | 0x1C => f.evt.setWidth 32
  | 0x20 => f.lastErr
  | 0x30 => pack [(0, f.err.toNat), (16, f.errOffs.toNat)]
  | _ => 0

/-- The launch queue's registers, offsets 0x200 to 0x23C (R124). -/
def lqRead (d : Device) (n : ChanNo) (o : Nat) : Word :=
  let q := (chan d n).lq
  if 0x220 ≤ o ∧ o < 0x240 then lqMapWord d n ((o - 0x220) / 4)
  else match o with
  | 0x200 => q.sel.setWidth 32
  | 0x208 => pack [(0, q.resIdx.toNat), (8, q.resCode.toNat)]
  | 0x210 => q.evt.setWidth 32
  | 0x214 => lqCountWord d n
  | _ => 0

/-- The journal's registers, offsets 0x408 to 0x42C (R152). -/
def jnRead (d : Device) (n : ChanNo) (o : Nat) : Word :=
  let j := (chan d n).jn
  match o with
  | 0x408 => BitVec.ofNat 32 (jWords j)
  | 0x40C => BitVec.ofNat 32 (jPkts d n)
  | 0x410 => pack [(0, j.hold.toNat)]
  | 0x414 => jmarkWord j
  | 0x418 => cntWord j.ovf
  | 0x41C => cntWord j.corr
  | 0x420 => cntWord j.uncorr
  | 0x424 => j.cap.setWidth 32
  | 0x428 => j.nextSeq.setWidth 32
  | 0x42C => BitVec.ofNat 32 (jOcc j)
  | _ => 0

/-- CHn_HOLDLOGi, its first two words (R188). -/
def holdRead (d : Device) (n : ChanNo) (o : Nat) : Word :=
  let e := (chan d n).slp.log[(Fin.ofNat 16 (o / 16) : Fin 16)]
  if o % 16 = 0 then pack [(0, e.ident.toNat), (31, e.used.toNat)]
  else if o % 16 = 4 then pack [(0, e.count.toNat), (16, e.node.toNat), (23, e.streak.toNat), (31, e.sat.toNat)]
  else 0

/-- The sleep and wake registers, offsets 0x600 to 0x7FC (R188). -/
def slpRead (d : Device) (n : ChanNo) (o : Nat) : Word :=
  let s := (chan d n).slp
  let w := (chan d n).wake
  if 0x700 ≤ o then holdRead d n (o - 0x700)
  else match o with
  | 0x600 => pack [(0, s.windowMs.toNat), (8, s.descentMs.toNat), (16, s.repeatN.toNat), (24, s.reballotS.toNat)]
  | 0x604 => pack [(0, s.offerId.toNat), (11, s.commitId.toNat), (22, s.holdBaseHi.toNat), (26, s.follow.toNat), (27, s.planValid.toNat)]
  | 0x608 => pack [(0, s.ballotIndex.toNat), (8, s.ownNode.toNat), (15, s.holdReq.toNat)]
  | 0x60C => pack [(4, phaseCode s.phase), (8, s.lastResult.toNat), (12, s.refuseReason.toNat), (16, s.number.toNat), (24, s.holders.toNat)]
  | 0x610 => w.set.cfg
  | 0x614 => w.set.id.setWidth 32
  | 0x618 => w.set.idMask.setWidth 32
  | 0x628 => w.fwCfg
  | 0x62C => pack [(0, w.fwCount.toNat), (31, w.fwSat.toNat)]
  | 0x630 => pack [(0, w.lastSource.toNat), (3, w.armed.toNat), (4, w.decoding.toNat), (8, w.evt.toNat)]
  | 0x634 => pack [(0, w.calTaps.toNat), (12, w.calValid.toNat)]
  | _ => 0

/-- The line interface's registers, offsets 0xE00 to 0xE14 (R70, R398). -/
def lineRead (d : Device) (n : ChanNo) (o : Nat) : Word :=
  let l := (chan d n).line
  let s := d.sent[dieOf n]
  match o with
  | 0xE00 => pack [(0, lineCode (if l.reqWritten then l.req else .off)), (3, l.termEn.toNat), (4, l.localWake.toNat)]
  | 0xE04 => pack [(0, lineCode l.state), (3, l.token.toNat), (4, (drvOn d n).toNat), (5, l.termEn.toNat), (6, l.domHold.toNat),
      (7, s.ot.toNat), (8, s.vlineOk.toNat), (9, l.bias.toNat), (10, l.rxReady.toNat)]
  | 0xE08 => l.evt.setWidth 32
  | 0xE0C => l.confirmMs.setWidth 32
  | 0xE10 => l.rxdly.setWidth 32
  | 0xE14 => pack [(1, l.calBusy.toNat), (2, l.calValid.toNat), (4, l.calResult.toNat)]
  | _ => 0

/-- A channel's 32-bit registers (R423). -/
def chRead (d : Device) (n : ChanNo) (o : Nat) : Word :=
  if o < 0x200 then feRead d n o
  else if o < 0x300 then lqRead d n o
  else if o < 0x600 then jnRead d n o
  else if o < 0x800 then slpRead d n o
  else lineRead d n o

/-! ### TIM (R214, R429) -/

/-- A beacon estimate, one of its three words. -/
def estRead (e : Est) (o : Nat) : Word :=
  match o with
  | 0x0 => e.err.setWidth 32
  | 0x4 => pack [(0, e.err.toNat / 2 ^ 32), (16, e.valid.toNat), (17, e.wrapped.toNat), (18, e.incomplete.toNat), (19, e.range.toNat)]
  | 0x8 => pack [(0, e.seq.toNat), (16, e.hops.toNat)]
  | _ => 0

/-- TIM's 32-bit registers that a read does nothing to. -/
def timRead (d : Device) (o : Nat) : Word :=
  let t := d.tim
  if 0x80 ≤ o ∧ o < 0x90 then estRead t.cw (o - 0x80)
  else if 0x90 ≤ o ∧ o < 0xA0 then estRead t.ccw (o - 0x90)
  else if 0x100 ≤ o ∧ o < 0x300 then
    (if o % 0x20 = 0x10 then ((histOf d (BitVec.ofNat 4 ((o - 0x100) / 0x20))).offset.extractLsb' 0 16).setWidth 32 else 0)
  else match o with
  | 0x00 => pack [(0, t.servoHost.toNat), (1, t.master.toNat), (2, t.pairInc.toNat)]
  | 0x04 => pack [(0, t.gen.toNat), (4, t.staged.isSome.toNat), (5, t.masterLost.toNat), (8, t.evt.toNat)]
  | 0x08 => t.masterSt.setWidth 32
  | 0x0C => pack [(0, t.flags.toNat), (16, t.utc.toNat)]
  | 0x10 => pack [(0, t.beaconMs.toNat), (12, t.lossN.toNat), (16, t.pdelayMs.toNat)]
  | 0x14 => pack [(0, t.routeChanged.toNat), (1, t.cw.wrapped.toNat), (2, t.ccw.wrapped.toNat)]
  | 0x24 => t.nowNs.extractLsb' 0 32
  | 0x28 => t.nowNs.extractLsb' 32 32
  | 0x30 => t.offsNs.extractLsb' 0 32
  | 0x34 => t.offsNs.extractLsb' 32 32
  | 0x60 => pack [(0, t.convGen.toNat), (4, t.byGen.toNat), (5, t.inverse.toNat), (8, t.convBusy.toNat), (9, t.stale.toNat), (12, t.genUsed.toNat)]
  | 0x64 => t.inFrac.setWidth 32
  | 0x70 => t.outFrac.setWidth 32
  | 0xB0 => t.pdWest
  | 0xB4 => t.pdEast
  | 0xB8 => pack [(0, t.pdWestOk.toNat), (1, t.pdEastOk.toNat)]
  | _ => 0

/-- TIM's 64-bit registers. -/
def timWide (d : Device) (o : Nat) : Option (BitVec 64) :=
  let t := d.tim
  if 0x100 ≤ o ∧ o < 0x300 then
    let h := histOf d (BitVec.ofNat 4 ((o - 0x100) / 0x20))
    if o % 0x20 = 0 then some h.boundary
    else if o % 0x20 = 8 then some (h.rate.setWidth 64 ||| (if h.valid then 0x8000000000000000#64 else 0))
    else if o % 0x20 = 0x14 then some (h.offset.extractLsb' 16 64)
    else none
  else match o with
  | 0x18 => some t.raw
  | 0x38 => some (t.rate.setWidth 64)
  | 0x40 => some (t.offsInc.setWidth 64)
  | 0x48 => some (t.rateInc.setWidth 64)
  | 0x68 => some t.convIn
  | 0x74 => some t.outVal
  | 0xA0 => some (BitVec.ofNat 64 (t.skew.toNat + t.skewValid.toNat * 2 ^ 48 + t.routeChanged.toNat * 2 ^ 49))
  | _ => none

/-! ### RNG, LCK (R252, R253, R431, R432) -/

/-- The code of a port state. -/
def portCode (s : PortSt) : Nat :=
  match s with
  | .down => 0
  | .training => 1
  | .up => 2
  | .miswired => 3

/-- The code of a join state. -/
def joinCode (s : JoinSt) : Nat :=
  match s with
  | .off => 0
  | .training => 1
  | .joining => 2
  | .joined => 3
  | .collision => 4

/-- A lane port's registers (R252): the mirror lane has no neighbour and no drop queue (R431). -/
def portRead (p : LanePort) (isMirror : Bool) (o : Nat) : Word :=
  match o with
  | 0x00 => pack [(0, portCode p.st), (2, p.phi.toNat), (4, p.u.toNat), (11, p.blockLock.toNat), (12, p.rxLos.toNat), (13, p.txFault.toNat),
      (14, p.modAbs.toNat), (15, p.spanDownRx.toNat), (16, if isMirror then 0 else p.nbr.toNat), (26, (p.nbrValid && !isMirror).toNat)]
  | 0x04 => cntWord p.crcErr
  | 0x08 => cntWord p.framing
  | 0x0C => if isMirror then 0 else cntWord p.dropFull
  | 0x10 => cntWord p.linkFail
  | _ => 0

/-- A2h was copied less than 2 s ago (R252). -/
def a2Fresh (d : Device) (m : Sfp) : Bool := m.a2Valid && decide ((d.tim.raw - m.a2At).toNat < 2000 * msTicks)

/-- A module's copied pages (R217, R252). -/
def sfpRead (d : Device) (m : Sfp) (o : Nat) : Word :=
  if o < 0x60 then BitVec.ofNat 32 (leAt m.a0 o 4)
  else if o < 0x6C then BitVec.ofNat 32 (leAt m.a2 (o - 0x60) 4)
  else if o = 0x7C then pack [(0, m.a0Valid.toNat), (1, (a2Fresh d m).toNat), (2, m.i2cErr.toNat)]
  else 0

/-- The map and the pair table read as 0 (R431). -/
def mapHidden (d : Device) : Bool := decide (d.ring.join = .off) || decide (d.ring.join = .training)

/-- The map entry of a station as read: of its own number the station's own (R431). -/
def mapRead (d : Device) (s : BitVec 10) : Word :=
  if s = d.ring.station ∧ d.ring.numbered = true then
    pack [(20, 1), (21, 1), (23, (decide (d.ring.join = .collision)).toNat), (24, d.ring.epoch.toNat)]
  else if mapHidden d then 0
  else
    let m := mapOf d s
    pack [(0, m.cwHops.toNat), (10, m.ccwHops.toNat), (20, m.cwOk.toNat), (21, m.ccwOk.toNat), (22, m.host.toNat), (23, m.collision.toNat),
      (24, m.epoch.toNat)]

/-- The pair entry as read. -/
def pairRead (d : Device) (p : Nat) : PairEnt := if mapHidden d then {} else pairOf d p

/-- RNG's 32-bit registers. -/
def rngRead (d : Device) (o : Nat) : Word :=
  let r := d.ring
  if 0x2000 ≤ o then
    (if o % 16 = 0 then
      let e := pairRead d ((o - 0x2000) / 16)
      pack [(0, e.active.toNat), (10, e.shadow.toNat), (20, e.epoch.toNat), (28, e.valid.toNat)]
    else 0)
  else if 0x1000 ≤ o then mapRead d (BitVec.ofNat 10 ((o - 0x1000) / 4))
  else if 0x400 ≤ o ∧ o < 0x580 then sfpRead d r.sfp[(Fin.ofNat 3 ((o - 0x400) / 0x80) : Fin 3)] ((o - 0x400) % 0x80)
  else if 0x100 ≤ o ∧ o < 0x120 then portRead r.east false (o - 0x100)
  else if 0x120 ≤ o ∧ o < 0x140 then portRead r.west false (o - 0x120)
  else if 0x140 ≤ o ∧ o < 0x160 then portRead r.mirror true (o - 0x140)
  else match o with
  | 0x00 => pack [(0, r.en.toNat)]
  | 0x04 => pack [(0, r.station.toNat), (10, joinCode r.join), (13, r.wrapEast.toNat), (14, r.wrapWest.toNat), (16, r.epoch.toNat)]
  | 0x08 => r.tmo.setWidth 32
  | 0x0C => r.err.setWidth 32
  | 0x10 => r.nextSeq.setWidth 32
  | _ => 0

/-- RNG_PAIRp castled. -/
def rngWide (d : Device) (o : Nat) : Option (BitVec 64) :=
  if 0x2000 ≤ o ∧ o % 16 = 8 then some (pairRead d ((o - 0x2000) / 16)).castled else none

/-- LCK (R253); in the shadow result reads NONE (R289). -/
def lckRead (d : Device) (o : Nat) : Word :=
  let l := lockAt d (o / 16)
  match o % 16 with
  | 0x0 => pack [(0, l.owner.toNat), (10, l.held.toNat), (11, l.broken.toNat)]
  | 0x4 => pack [(0, l.leaseMs.toNat), (16, leaseLeft d l)]
  | 0x8 => cntWord l.cnt
  | 0xC => pack [(8, if locksCopied d then 0 else l.result.toNat), (16, l.opLease.toNat)]
  | _ => 0

/-! ### CON, PAIR (R276, R303, R433, R434) -/

/-- A requester of the pending queue. -/
def isPending (a : Arbiter) (q : Nat) : Bool := a.pending.any (fun x => decide (x.1.val = q))

/-- Pending bits of 32 requesters from one on. -/
def pendWord (a : Arbiter) (q0 : Nat) : Word := pack ((List.range 32).map (fun i => (i, (isPending a (q0 + i)).toNat)))

/-- CON_RESr_STAT (R276, R433); with tables released that the next decision takes, its slot is entry 0 (R263). -/
def resRead (d : Device) (r : ResNo) (o : Nat) : Word :=
  let a := arbOf d r
  match o with
  | 0x0 => pack [(0, match a.owner with
        | some x => x.1.val
        | none => 0), (7, a.owner.isSome.toNat), (8, if a.takeStaged then 0 else a.slotPtr.toNat), (16, a.pending.length), (24, rankOf r)]
  | 0x4 => pendWord a 0
  | 0x8 => pendWord a 32
  | 0xC => pendWord a 64
  | _ => 0

/-- District D13 is held, so the staged tables are read and written (R263, R276). -/
def tablesHeld (d : Device) : Bool := decide (d.img.held = some 13)

/-- The slot tables a read sees. -/
def slotsSeen (d : Device) : Tab (BitVec 7) := if tablesHeld d then d.con.slotsNew else d.con.slots

/-- The rankings a read sees. -/
def ranksSeen (d : Device) : Tab (BitVec 7) := if tablesHeld d then d.con.ranksNew else d.con.ranks

/-- Four bytes as a word. -/
def fourBytes (f : Nat → Nat) : Word := pack [(0, f 0), (8, f 1), (16, f 2), (24, f 3)]

/-- The resources for which a bit holds. -/
def resBits (f : ResNo → Bool) : Word := pack ((List.finRange 20).map (fun r => (r.val, (f r).toNat)))

/-- CON's 32-bit registers. -/
def conRead (d : Device) (o : Nat) : Word :=
  if 0x20000 ≤ o then
    let r := (o - 0x20000) / 0x80
    let w := (o - 0x20000) % 0x80 / 4
    if r < 20 ∧ w < 20 then
      fourBytes (fun j => if 4 * w + j < 78 then (posAt (ranksSeen d) r (4 * w + j)).toNat else 0)
    else 0
  else if 0x10000 ≤ o then
    let r := (o - 0x10000) / 0x100
    let w := (o - 0x10000) % 0x100 / 4
    if r < 20 then fourBytes (fun j => (slotAt (slotsSeen d) r (4 * w + j)).toNat) else 0
  else if h : 0x100 ≤ o ∧ o < 0x240 then resRead d ⟨(o - 0x100) / 16, by omega⟩ (o % 16)
  else match o with
  | 0x00 => d.con.freeze.setWidth 32
  | 0x04 => (d.con.freeze ||| d.con.loaderFreeze).setWidth 32
  | 0x08 => resBits (fun r => drained d r)
  | 0x0C => pack [(0, d.con.faultQ.toNat), (8, d.con.faultHeld.toNat), (16, d.con.faultReq.toNat), (31, d.con.faultSeen.toNat)]
  | 0x10 => cntWord d.con.faultCnt
  | _ => 0

/-- PAIR_HELD: unpaired, the channels with role HEAD or MEMBER (R434). -/
def heldRead (d : Device) : BitVec 64 := if paired d then d.pair.held else driveChans d

/-- PAIR's 32-bit registers. -/
def prRead (d : Device) (o : Nat) : Word :=
  let p := d.pair
  match o with
  | 0x04 => pack [(0, (roleCode p.role).toNat), (2, (pairStCode p.st).toNat), (5, (decide (d.ring.mirror.st = .up)).toNat), (6, p.hbOk.toNat),
      (8, p.epoch.toNat), (16, p.number.toNat)]
  | 0x08 => p.partner.setWidth 32
  | 0x0C => pack [(0, p.check10us.toNat), (8, p.posTol.toNat)]
  | 0x2C => pack [(0, p.resCode.toNat), (4, p.resWhole.toNat), (5, p.resChan.toNat)]
  | 0x30 => p.evt.setWidth 32
  | 0x34 => p.mirDelay
  | 0x40 => cntWord p.hbLoss
  | 0x44 => cntWord p.resyncCnt
  | _ => 0

/-- PAIR's 64-bit registers. -/
def prWide (d : Device) (o : Nat) : Option (BitVec 64) :=
  match o with
  | 0x10 => some d.pair.chCastleEn
  | 0x18 => some (heldRead d)
  | 0x20 => some d.pair.fcLocal
  | 0x38 => some d.pair.rawDiff
  | _ => none

/-! ### ME (R326, R327, R435, R436) -/

/-- The code of an engine's state. -/
def engCode (s : EngSt) : Nat :=
  match s with
  | .stopped => 0
  | .run => 1
  | .stopping => 2

/-- The code of a context's state (R306). -/
def ctxCode (s : CtxSt) : Nat :=
  match s with
  | .off => 0
  | .ready => 1
  | .stalled => 2
  | .halted => 3
  | .faulted => 4

/-- The contexts of an engine in a state. -/
def ctxCount (e : Engine) (s : CtxSt) : Nat := (e.ctx.toList.filter (fun c => decide (c.st = s))).length

/-- A pin cell's 32-bit registers (R327). -/
def pinRead (d : Device) (p : PinNo) (o : Nat) : Word :=
  let c := pinAt d p
  match o with
  | 0x00 => c.cfg.setWidth 32
  | 0x04 => c.div.setWidth 32
  | 0x08 => pack [(0, c.level.toNat), (1, c.busy.toNat), (2, (absorbed d p).toNat), (8, c.txq.length), (16, c.rxq.length)]
  | 0x0C => c.evt.setWidth 32
  | 0x28 => c.out.setWidth 32
  | _ => 0

/-- An engine's 32-bit registers below its scratch window. -/
def meRead (d : Device) (k : EngNo) (o : Nat) : Word :=
  let e := d.eng[k]
  let c : CtxNo := Fin.ofNat 32 (o / 4)
  if 0x3000 ≤ o ∧ o < 0x3800 then pinRead d (pinNo (16 * k.val + (o - 0x3000) / 0x80)) (o % 0x80)
  else if 0x2000 ≤ o ∧ o < 0x2800 then (e.ctx[(Fin.ofNat 32 ((o - 0x2000) / 0x40) : Fin 32)]).g[(Fin.ofNat 16 (o / 4) : Fin 16)]
  else if 0x1000 ≤ o ∧ o < 0x2000 then tabGet (0 : Word) e.prog ((o - 0x1000) / 4)
  else if 0x200 ≤ o ∧ o < 0x280 then
    let x := e.ctx[c]
    pack [(0, x.pc.toNat), (10, ctxCode x.st), (16, x.cause.toNat)]
  else if 0x100 ≤ o ∧ o < 0x180 then (e.ctx[c]).cfg
  else match o with
  | 0x4 => pack [(0, engCode e.st), (2, e.progBusy.toNat), (3, e.startRefused.toNat), (4, e.faultSeen.toNat), (8, ctxCount e .ready),
      (16, ctxCount e .stalled)]
  | 0x8 => e.ctxEn
  | 0xC => pack [(0, e.page.toNat)]
  | _ => 0

/-- PCELLp_SHADOW. -/
def meWide (d : Device) (k : EngNo) (o : Nat) : Option (BitVec 64) :=
  if 0x3000 ≤ o ∧ o < 0x3800 ∧ o % 0x80 = 0x20 then
    let c := pinAt d (pinNo (16 * k.val + (o - 0x3000) / 0x80))
    some (BitVec.ofNat 64 (c.shWord.toNat + c.shBits.toNat * 2 ^ 32 + c.shValid.toNat * 2 ^ 38 + c.shTx.toNat * 2 ^ 39))
  else none

/-- The scratch word that an offset of the window names (R326, R435). -/
def scrIndex (e : Engine) (o : Nat) : Nat := (o - 0x8000) / 4 + (if e.page then 8192 else 0)

/-! ### IMG, SVC (R366, R392, R437, R439) -/

/-- IMG (R366). -/
def imgRead (d : Device) (o : Nat) : Word :=
  let i := d.img
  match o with
  | 0x04 => i.src.setWidth 32
  | 0x08 => pack [(0, i.step.toNat), (4, i.busy.toNat)]
  | 0x0C => pack [(0, i.resCode.toNat), (8, i.resDist.toNat), (12, i.resVerify.toNat), (16, i.resType.toNat)]
  | 0x10 => i.resOffs
  | 0x14 => i.holdMs.setWidth 32
  | 0x18 => match i.held with
    | some k => BitVec.ofNat 32 (2 ^ k)
    | none => 0
  | 0x1C => i.id
  | 0x20 => fourBytes (fun j => (i.epochs[(Fin.ofNat 14 j : Fin 14)]).toNat)
  | 0x24 => fourBytes (fun j => (i.epochs[(Fin.ofNat 14 (4 + j) : Fin 14)]).toNat)
  | 0x28 => fourBytes (fun j => (i.epochs[(Fin.ofNat 14 (8 + j) : Fin 14)]).toNat)
  | 0x2C => fourBytes (fun j => if j < 2 then (i.epochs[(Fin.ofNat 14 (12 + j) : Fin 14)]).toNat else 0)
  | 0x30 => i.stage.setWidth 32
  | 0x34 => i.stageSize.setWidth 32
  | _ => 0

/-- The trial seconds left (R385): whole seconds, counted down. -/
def trialLeft (d : Device) : Nat :=
  match d.svc.trialEnd with
  | some e => if reached d.tim.raw e then 0 else ((e - d.tim.raw).toNat + 1000 * msTicks - 1) / (1000 * msTicks)
  | none => 0

/-- SVC (R392, R439); SVC_SLOTx from start-up step 1 on (R428). -/
def svcRead (d : Device) (o : Nat) : Word :=
  let s := d.svc
  match o with
  | 0x00 => pack [(0, s.recovery.toNat), (1, s.slot.toNat), (2, s.trial.toNat), (3, s.session.isSome.toNat), (16, match s.session with
      | some x => x.owner.toNat
      | none => 0)]
  | 0x04 => BitVec.ofNat 32 (trialLeft d)
  | 0x08 => match s.session with
    | some x => BitVec.ofNat 32 x.written
    | none => 0
  | 0x10 => if s.slotsRead then pack [(0, slotState d false), (4, slotCause d false)] else 0
  | 0x14 => if s.slotsRead then slotSeq d false else 0
  | 0x18 => if s.slotsRead then pack [(0, slotState d true), (4, slotCause d true)] else 0
  | 0x1C => if s.slotsRead then slotSeq d true else 0
  | 0x20 => pack [(0, s.ledVersion.toNat), (16, s.ledCopy.toNat), (17, s.ledTrial.toNat), (18, s.ledDefaulted.toNat)]
  | 0x24 => s.ledSeq
  | 0x28 => pack [(0, s.density.toNat), (16, s.sfdpOk.toNat), (17, s.flashErr.toNat)]
  | 0x30 => cntWord s.crcErr
  | 0x34 => cntWord s.framing
  | _ => 0

/-! ### A read of the window (R5, R8, R413, R416, R427) -/

/-- The channel an offset of the CH block lies in. -/
def offChan (a : Nat) : ChanNo := Fin.ofNat 64 ((a - 0x100000) / 0x1000)

/-- The engine an offset of the ME block lies in. -/
def offEng (a : Nat) : EngNo := Fin.ofNat 8 ((a - 0x800000) / 0x10000)

/-- The value of the 64-bit register whose low half is at an offset, none where there is none; those that a read pops are not
here. -/
def wideReg (d : Device) (a : Nat) : Option (BitVec 64) :=
  if 0x100000 ≤ a ∧ a < 0x140000 then
    let n := offChan a
    let o := a % 0x1000
    if o = 0x620 then some (chan d n).wake.set.dmask
    else if 0x700 ≤ o ∧ o < 0x800 ∧ o % 16 = 8 then some ((chan d n).slp.log[(Fin.ofNat 16 ((o - 0x700) / 16) : Fin 16)]).stamp
    else none
  else if a = 0x200100 then some (jrnReady d)
  else if a = 0x200108 then some (jrnAttn d)
  else if 0x400000 ≤ a ∧ a < 0x401000 then timWide d (a - 0x400000)
  else if 0x500000 ≤ a ∧ a < 0x504000 then rngWide d (a - 0x500000)
  else if a = 0x600018 then some d.con.starve
  else if 0x700000 ≤ a ∧ a < 0x701000 then prWide d (a - 0x700000)
  else if 0x800000 ≤ a ∧ a < 0x880000 then meWide d (offEng a) (a % 0x10000)
  else none

/-- The value of the 32-bit register at an offset; a reserved word and a write-only register read 0 (R8, R413). -/
def narrowReg (d : Device) (a : Nat) : Word :=
  if a < 0x800 then tagRead d a
  else if 0x10000 ≤ a ∧ a < 0x11000 then glbRead d (a - 0x10000)
  else if 0x20000 ≤ a ∧ a < 0x21000 then latRead d (a - 0x20000)
  else if 0x100000 ≤ a ∧ a < 0x140000 then chRead d (offChan a) (a % 0x1000)
  else if 0x200000 ≤ a ∧ a < 0x200100 then census d (Fin.ofNat 64 ((a - 0x200000) / 4))
  else if 0x400000 ≤ a ∧ a < 0x401000 then timRead d (a - 0x400000)
  else if 0x500000 ≤ a ∧ a < 0x504000 then rngRead d (a - 0x500000)
  else if 0x580000 ≤ a ∧ a < 0x581000 then lckRead d (a - 0x580000)
  else if 0x600000 ≤ a ∧ a < 0x630000 then conRead d (a - 0x600000)
  else if 0x700000 ≤ a ∧ a < 0x701000 then prRead d (a - 0x700000)
  else if 0x800000 ≤ a ∧ a < 0x880000 then meRead d (offEng a) (a % 0x10000)
  else if 0x1000000 ≤ a ∧ a < 0x1001000 then imgRead d (a - 0x1000000)
  else if 0x1100000 ≤ a ∧ a < 0x1101000 then svcRead d (a - 0x1100000)
  else 0

/-- The low half of the pair that an offset is the high half of is read before: the pop windows latch one for all (R416). -/
def latched (d : Device) (a : Nat) : Word := tabGet (0 : Word) d.glb.hiLatch a

/-- A low half pops: CHn_JREAD or CHn_JWIN (R137, R139). -/
def popsJournal (o : Nat) : Bool := decide (o = 0x400) || (decide (0x480 ≤ o) && decide (o < 0x520) && decide (o % 8 = 0))

/-- The high half that goes with a popping low half. -/
def popsHigh (o : Nat) : Bool := decide (4 ≤ o) && popsJournal (o - 4)

/-- Reads of the channel blocks that do something: pops and their tags, the launch-queue window (R108, R137, R139, R420). -/
def chanSpecial (d : Device) (n : ChanNo) (o : Nat) : Option (Word × Device) :=
  if popsJournal o then some (readPop d n)
  else if popsHigh o then some (latched d (chanOff n 0x400), d)
  else if 0x300 ≤ o ∧ o < 0x360 then
    (if (chan d n).lq.base.isSome then some (memRead d (lqPlace d n (chan d n).lq.sel.toFin ((o - 0x300) / 4))) else some (0, d))
  else none

/-- Reads of an engine's block that do something: a host pop and its valid bit, a checked scratch word (R323, R420). -/
def engSpecial (d : Device) (k : EngNo) (o : Nat) : Option (Word × Device) :=
  if 0x8000 ≤ o then some (scrRead d k (scrIndex d.eng[k] o))
  else if 0x3000 ≤ o ∧ o < 0x3800 then
    let p := pinNo (16 * k.val + (o - 0x3000) / 0x80)
    if o % 0x80 = 0x18 then some (hostPop d p)
    else if o % 0x80 = 0x1C then some (latched d (pinOff p 0x18), d)
    else none
  else none

/-- Reads of TIM that do something: latched fabric times, and the converter's, which wait for the conversion (R191, R199). -/
def timSpecial (d : Device) (o : Nat) : Option (Word × Device) :=
  if o = 0x20 then some (nowRead d)
  else if o = 0x2C then some (offsRead d)
  else if o = 0x60 ∨ o = 0x70 then
    let d := convComplete d
    some (timRead d o, d)
  else none

/-- The reads that do something beside answering. -/
def specialRead (d : Device) (a : Nat) : Option (Word × Device) :=
  if 0x100000 ≤ a ∧ a < 0x140000 then chanSpecial d (offChan a) (a % 0x1000)
  else if 0x400000 ≤ a ∧ a < 0x401000 then timSpecial d (a - 0x400000)
  else if 0x800000 ≤ a ∧ a < 0x880000 then engSpecial d (offEng a) (a % 0x10000)
  else if 0x10000000 ≤ a ∧ a < 0x11000000 then some (memRead d (a - 0x10000000))
  else none

/-- A read of either half of TIM_CONV_OUT completes with the conversion in progress (R199). -/
def beforeWide (d : Device) (a : Nat) : Device := if a = 0x400074 ∨ a = 0x400078 then convComplete d else d

/-- A read of a mapped, aligned word: a low half latches its high half, a high half answers the latch (R5, R416). -/
def readReg (d : Device) (a : Nat) : Word × Device :=
  match specialRead d a with
  | some r => r
  | none =>
    let d := beforeWide d a
    match wideReg d a with
    | some v => (v.extractLsb' 0 32, latchHi d a (v.extractLsb' 32 32))
    | none =>
      if 4 ≤ a ∧ (wideReg d (a - 4)).isSome then (latched d (a - 4), d)
      else (narrowReg d a, d)

end Sys2Proof.Machine
end

