-- ==== Sys2Proof/Machine/RegWrite.lean ====
section
/-! DEFINITION. What a write to each register does, block by block, its refusals (R7 to R9) first; then an access of any width and
source (R4, R5, R412). -/

namespace Sys2Proof.Machine

/-! ### Refusals (R7, R9, R424) -/

/-- A bit of CHn_ERR set by a refused write to an offset of the channel's block. -/
def chErr (d : Device) (n : ChanNo) (bit o : Nat) : Device :=
  onFe d n (fun f => { f with err := setBit f.err bit, errOffs := BitVec.ofNat 12 o })

/-- A write whose codes are legal takes effect; another is ignored whole and sets bad_code (R7). -/
def ifLegal (d : Device) (src : Src) (a : Nat) (ok : Bool) (f : Device → Device) : Device :=
  if ok then f d else glbErr d 1 src a

/-- The same in a channel block. -/
def ifLegalCh (d : Device) (n : ChanNo) (o : Nat) (ok : Bool) (f : Device → Device) : Device :=
  if ok then f d else chErr d n 0 o

/-- An RWH write: refused outside its hold, and then examined no further (R8, R9). -/
def ifOpen (d : Device) (src : Src) (a : Nat) (open_ : Bool) (f : Device → Device) : Device :=
  if open_ then f d else glbErr d 2 src a

/-- A 1 clears (W1C). -/
def w1c {w : Nat} (x : BitVec w) (v : Word) (lo : Nat) : BitVec w := x &&& ~~~ (v >>> lo).setWidth w

/-- One sticky bit under W1C. -/
def w1cBit (b : Bool) (v : Word) (i : Nat) : Bool := b && !v.getLsbD i

/-! ### TAG, GLB, LAT (R254, R408, R409, R411, R418 to R422) -/

/-- A tag-area write: the change waits for a ledger write (R409). -/
def tagPut (d : Device) (i : Nat) (v : Word) : Device :=
  { d with tag := tabSet (0 : Word) d.tag i v, glb := { d.glb with tagPending := true } }

/-- TAG. -/
def tagWrite (d : Device) (src : Src) (o : Nat) (v : Word) : Device :=
  if o = 0 then ifLegal d src o (tagIdentOk v) (fun d => tagPut d 0 v)
  else if o = 4 then ifLegal d src o (tagRoleOk v) (fun d => tagPut d 1 (v &&& 3))
  else if o < 0x28 ∨ 0x40 ≤ o then tagPut d (o / 4) v
  else d

/-- GLB_SENTd_CTRL and GLB_SENTd_STAT. -/
def sentWrite (d : Device) (src : Src) (o : Nat) (v : Word) : Device :=
  let k : DieNo := Fin.ofNat 4 (o / 16)
  if o % 16 = 0 then ifLegal d src (0x10100 + o) (orphanOk v) (fun d => toSentinel d (fun d => onSent d k (fun s => { s with orphanMs := v.setWidth 11 })))
  else if o % 16 = 4 then onSent d k (fun s => { s with wakeNSeen := w1cBit s.wakeNSeen v 4 })
  else d

/-- GLB_STBY_CTRL: with both bits written the cancel goes first (log 40). -/
def stbyWrite (d : Device) (v : Word) : Device :=
  let d := if v.getLsbD 1 then standbyCancel d else d
  if v.getLsbD 0 then standbyRequest d else d

/-- GLB_TAG_CTRL. -/
def tagCtrl (d : Device) (v : Word) : Device :=
  let d := { d with glb := { d.glb with persisted := w1cBit d.glb.persisted v 2 } }
  if v.getLsbD 0 then ledgerBegin d else d

/-- GLB. -/
def glbWrite (d : Device) (src : Src) (o : Nat) (v : Word) : Device :=
  let g := d.glb
  if 0x100 ≤ o ∧ o < 0x140 then sentWrite d src (o - 0x100) v
  else match o with
  | 0x04 => { d with glb := { g with err := w1c g.err v 0 } }
  | 0x10 => { d with glb := { g with eccCorr := cntWrite g.eccCorr v } }
  | 0x14 => { d with glb := { g with eccUncorr := cntWrite g.eccUncorr v } }
  | 0x20 => stbyWrite d v
  | 0x24 => { d with glb := { g with stbyAborted := w1cBit g.stbyAborted v 2 } }
  | 0x28 => if v.getLsbD 0 then deviceReset d 3 else d
  | 0x2C => { d with glb := { g with rstCause := w1c g.rstCause v 0 } }
  | 0x34 => tagCtrl d v
  | 0x40 => { d with glb := { g with evtDest := v.setWidth 10, evtValid := v.getLsbD 15 } }
  | 0x44 => { d with glb := { g with evtPend := w1c g.evtPend v 0 } }
  | 0x48 => { d with glb := { g with evtMask := (v &&& 0x7FE#32).setWidth 11 } }
  | _ => d

/-- LAT. -/
def latWrite (d : Device) (o : Nat) (v : Word) : Device :=
  let l := d.lat
  match o with
  | 0x4 => if v.getLsbD 31 then { d with lat := { l with peak := 0 } } else d
  | 0x8 => { d with lat := { l with slowSeen := w1cBit l.slowSeen v 8, refSwitched := w1cBit l.refSwitched v 9 } }
  | 0xC => { d with lat := { l with econSeen := w1cBit l.econSeen v 8 || l.econ } }
  | _ => d

/-! ### The channel blocks (R70, R85, R86, R105, R124, R152, R188) -/

/-- The channel's bus district is held (R86). -/
def chanHeld (d : Device) (n : ChanNo) : Bool := decide (d.img.held = some (n.val / 8 + 1))

/-- CHn_FE_CFG, CHn_NBT, CHn_DBT: RWH. -/
def timingWrite (d : Device) (n : ChanNo) (o : Nat) (ok : Bool) (f : FrameEngine → FrameEngine) : Device :=
  if chanHeld d n then ifLegalCh d n o ok (fun d => onFe d n f) else chErr d n 1 o

/-- The frame engine's registers. -/
def feWrite (d : Device) (n : ChanNo) (o : Nat) (v : Word) : Device :=
  let f := (chan d n).fe
  match o with
  | 0x04 => timingWrite d n o true (fun f => { f with feCfg := v.setWidth 3 })
  | 0x08 => timingWrite d n o (timingOk (v &&& 0x3FFFFFFF#32) f.dbt) (fun f => { f with nbt := v &&& 0x3FFFFFFF#32 })
  | 0x0C => timingWrite d n o (timingOk f.nbt (v &&& 0x01FFFFFF#32)) (fun f => { f with dbt := v &&& 0x01FFFFFF#32 })
  | 0x18 => if v.getLsbD 0 then recoveryStart d n else d
  | 0x1C => onFe d n (fun f => { f with evt := w1c f.evt v 0 })
  | 0x30 => onFe d n (fun f => { f with err := w1c f.err v 0 })
  | _ => d

/-- CHn_LQ_CANCEL. -/
def cancelWrite (d : Device) (n : ChanNo) (v : Word) : Device :=
  if !v.getLsbD 8 then d
  else if v.getLsbD 9 then startCancel d n none
  else startCancel d n (some (Fin.ofNat 128 (fld v 0 7)))

/-- The launch queue's registers and its window. -/
def lqWrite (d : Device) (n : ChanNo) (o : Nat) (v : Word) : Device :=
  if 0x300 ≤ o ∧ o < 0x360 then windowWrite d n ((o - 0x300) / 4) v
  else match o with
  | 0x200 => onLq d n (fun q => { q with sel := v.setWidth 7 })
  | 0x204 => if v.getLsbD 8 then hostCommit d n (Fin.ofNat 128 (fld v 0 7)) else d
  | 0x20C => cancelWrite d n v
  | 0x210 => onLq d n (fun q => { q with evt := w1c q.evt v 0 })
  | _ => d

/-- The journal's registers. -/
def jnWrite (d : Device) (n : ChanNo) (o : Nat) (v : Word) : Device :=
  match o with
  | 0x410 => writeJctrl d n v
  | 0x414 => onJn d n (fun j => { j with markLost := w1cBit j.markLost v 1, rewindRefused := w1cBit j.rewindRefused v 2 })
  | 0x418 => onJn d n (fun j => { j with ovf := cntWrite j.ovf v })
  | 0x41C => onJn d n (fun j => { j with corr := cntWrite j.corr v })
  | 0x420 => onJn d n (fun j => { j with uncorr := cntWrite j.uncorr v })
  | _ => d

/-- CHn_BALLOT: go, abort and clear_log of one write act in this order (log 40). -/
def ballotWrite (d : Device) (n : ChanNo) (v : Word) : Device :=
  let d := if v.getLsbD 0 then ballotGo d n else d
  let d := if v.getLsbD 1 then ballotEnd d n 5 else d
  if v.getLsbD 2 then mirrorLog (onSlp d n (fun s => { s with log := Vector.replicate 16 noHold })) n else d

/-- CHn_WAKE_CFG: a change of wake_mode is a switch by the host (R182, R183). -/
def wakeCfgWrite (d : Device) (n : ChanNo) (v : Word) : Device :=
  let d := hostWakeMode d n (v.getLsbD 2)
  onWake d n (fun w => { w with set := { w.set with cfg := v &&& 0x000FFF77#32 } })

/-- CHn_HOLDLOGi: 1 in sat clears count and sat (R10). -/
def holdWrite (d : Device) (n : ChanNo) (o : Nat) (v : Word) : Device :=
  let i : Fin 16 := Fin.ofNat 16 (o / 16)
  if o % 16 = 4 ∧ v.getLsbD 31 = true then
    onSlp d n (fun s => { s with log := s.log.set i { s.log[i] with count := 0, sat := false } })
  else d

/-- The sleep and wake registers. -/
def slpWrite (d : Device) (n : ChanNo) (o : Nat) (v : Word) : Device :=
  if 0x700 ≤ o then holdWrite d n (o - 0x700) v
  else match o with
  | 0x600 => ifLegalCh d n o (slpCfgOk v) (fun d => onSlp d n (fun s => { s with
      windowMs := v.extractLsb' 0 8, descentMs := v.extractLsb' 8 8, repeatN := v.extractLsb' 16 8, reballotS := v.extractLsb' 24 8 }))
  | 0x608 => onSlp d n (fun s => { s with holdReq := v.getLsbD 15 })
  | 0x60C => ballotWrite d n v
  | 0x610 => ifLegalCh d n o (wakeCfgOk v) (fun d => toSentinel d (fun d => wakeCfgWrite d n v))
  | 0x614 => toSentinel d (fun d => onWake d n (fun w => { w with set := { w.set with id := v.setWidth 29 } }))
  | 0x618 => toSentinel d (fun d => onWake d n (fun w => { w with set := { w.set with idMask := v.setWidth 29 } }))
  | 0x628 => ifLegalCh d n o (fwCfgOk v)
      (fun d => toSentinel d (fun d => onWake d n (fun w => { w with fwCfg := v &&& 0x03FFF3FF#32 })))
  | 0x62C => if v.getLsbD 31 then onWake d n (fun w => { w with fwCount := 0, fwSat := false }) else d
  | 0x630 => onWake d n (fun w => { w with evt := w1c w.evt v 8 })
  | _ => d

/-- CHn_LINE_CTRL (R43, R58, R59, R64): the whole write is ignored for a reserved line_req alone. -/
def lineCtrl (d : Device) (n : ChanNo) (v : Word) : Device :=
  ifLegalCh d n 0xE00 (decide (fld v 0 3 < 4)) (fun d =>
    lineRequest (localWakeWrite (termWrite d n (v.getLsbD 3)) n (v.getLsbD 4)) n (lineOf (fld v 0 3)))

/-- The line interface's registers. -/
def lineWrite (d : Device) (n : ChanNo) (o : Nat) (v : Word) : Device :=
  match o with
  | 0xE00 => lineCtrl d n v
  | 0xE08 => onLine d n (fun l => { l with evt := w1c l.evt v 0 })
  | 0xE0C => ifLegalCh d n o (timersOk v) (fun d => toSentinel d (fun d => onLine d n (fun l => { l with confirmMs := v.setWidth 9 })))
  | 0xE10 => onLine d n (fun l => { l with rxdly := v.setWidth 5 })
  | 0xE14 => if v.getLsbD 0 then lineCalStart d n else d
  | _ => d

/-- A channel's registers. -/
def chWrite (d : Device) (n : ChanNo) (o : Nat) (v : Word) : Device :=
  if o < 0x200 then feWrite d n o v
  else if o < 0x400 then lqWrite d n o v
  else if o < 0x600 then jnWrite d n o v
  else if o < 0x800 then slpWrite d n o v
  else lineWrite d n o v

/-! ### TIM, RNG, LCK (R214, R252, R253, R431, R432) -/

/-- TIM_CTRL: the clock root may change (R30). -/
def timCtrl (d : Device) (v : Word) : Device :=
  refSelect { d with tim := { d.tim with servoHost := v.getLsbD 0, master := v.getLsbD 1, pairInc := v.getLsbD 2 } }

/-- TIM's 32-bit registers. -/
def timWrite (d : Device) (src : Src) (o : Nat) (v : Word) : Device :=
  let t := d.tim
  match o with
  | 0x00 => timCtrl d v
  | 0x04 => { d with tim := { t with evt := w1c t.evt v 8 } }
  | 0x08 => masterWrite d (v.setWidth 10)
  | 0x0C => { d with tim := { t with flags := v.setWidth 4, utc := v.extractLsb' 16 16 } }
  | 0x10 => ifLegal d src (0x400000 + o) (bcnOk v) (fun d => { d with tim := { d.tim with
      beaconMs := v.extractLsb' 0 10, lossN := v.extractLsb' 12 4, pdelayMs := v.extractLsb' 16 10 } })
  | 0x14 => { d with tim := { t with routeChanged := w1cBit t.routeChanged v 0 } }
  | 0x60 => convPut d (.ctrl v)
  | 0x64 => convPut d (.frac v)
  | _ => d

/-- RNG_CTRL: ring_en first, then the strobes in their order (log 40). -/
def ringCtrl (d : Device) (v : Word) : Device :=
  let d := ringEnable d (v.getLsbD 0)
  let d := if v.getLsbD 1 then rejoinOp d else d
  let d := if v.getLsbD 2 then retrain d .east else d
  let d := if v.getLsbD 3 then retrain d .west else d
  if v.getLsbD 4 then retrain d .mirror else d

/-- The counters of a lane port. -/
def portWrite (d : Device) (p : Port) (o : Nat) (v : Word) : Device :=
  match o with
  | 0x04 => onPort d p (fun q => { q with crcErr := cntWrite q.crcErr v })
  | 0x08 => onPort d p (fun q => { q with framing := cntWrite q.framing v })
  | 0x0C => onPort d p (fun q => { q with dropFull := cntWrite q.dropFull v })
  | 0x10 => onPort d p (fun q => { q with linkFail := cntWrite q.linkFail v })
  | _ => d

/-- The lane port of an index. -/
def portAt (i : Nat) : Port := if i = 0 then .east else if i = 1 then .west else .mirror

/-- RNG. -/
def rngWrite (d : Device) (src : Src) (o : Nat) (v : Word) : Device :=
  if 0x100 ≤ o ∧ o < 0x160 then portWrite d (portAt ((o - 0x100) / 0x20)) (o % 0x20) v
  else if 0x400 ≤ o ∧ o < 0x580 ∧ o % 0x80 = 0x7C then
    onSfp d (portAt ((o - 0x400) / 0x80)) (fun m => { m with i2cErr := w1cBit m.i2cErr v 2 })
  else match o with
  | 0x00 => ringCtrl d v
  | 0x08 => ifLegal d src (0x500000 + o) (decide (fld v 0 8 ≠ 0)) (fun d => { d with ring := { d.ring with tmo := v.setWidth 8 } })
  | 0x0C => { d with ring := { d.ring with err := w1c d.ring.err v 0 } }
  | _ => d

/-- LCK; in the shadow the block is a copy and is not operated (R289, R432). -/
def lckWrite (d : Device) (src : Src) (o : Nat) (v : Word) : Device :=
  let i : LockNo := Fin.ofNat 256 (o / 16)
  let l := lockAt d i.val
  match o % 16 with
  | 0x0 => if locksCopied d || !v.getLsbD 11 then d else lockPut d i { l with broken := false }
  | 0x8 => if locksCopied d then d else { d with locks := tabSet {} d.locks i.val { l with cnt := cntWrite l.cnt v } }
  | 0xC => localLock d src i (fld v 0 3) (v.extractLsb' 16 16)
  | _ => d

/-! ### CON, PAIR (R276, R303) -/

/-- A word of a staged slot table. -/
def slotWrite (d : Device) (src : Src) (a r w : Nat) (v : Word) : Device :=
  ifOpen d src a (tablesHeld d) (fun d =>
    ifLegal d src a ((List.range 4).all (fun j => slotOk (fld v (8 * j) 7))) (fun d => { d with con := { d.con with
      slotsNew := (List.range 4).foldl (fun t j => tabSet (0x7F : BitVec 7) t (256 * r + 4 * w + j) (v.extractLsb' (8 * j) 7)) d.con.slotsNew } }))

/-- A word of a staged background ranking; the fields of requesters 78 and 79 ignore it. -/
def bgWrite (d : Device) (src : Src) (a r w : Nat) (v : Word) : Device :=
  ifOpen d src a (tablesHeld d) (fun d => { d with con := { d.con with
    ranksNew := (List.range 4).foldl (fun t j => if 4 * w + j < 78 then posSet t r (4 * w + j) (v.extractLsb' (8 * j) 7) else t) d.con.ranksNew } })

/-- CON's 32-bit registers. -/
def conWrite (d : Device) (src : Src) (o : Nat) (v : Word) : Device :=
  if 0x20000 ≤ o then
    let r := (o - 0x20000) / 0x80
    let w := (o - 0x20000) % 0x80 / 4
    if r < 20 ∧ w < 20 then bgWrite d src (0x600000 + o) r w v else d
  else if 0x10000 ≤ o then
    let r := (o - 0x10000) / 0x100
    if r < 20 then slotWrite d src (0x600000 + o) r ((o - 0x10000) % 0x100 / 4) v else d
  else match o with
  | 0x00 => freezeWrite d (v.setWidth 20)
  | 0x0C => { d with con := { d.con with faultSeen := w1cBit d.con.faultSeen v 31 } }
  | 0x10 => { d with con := { d.con with faultCnt := cntWrite d.con.faultCnt v } }
  | _ => d

/-- PAIR_CTRL: castle, then resync (log 40). -/
def pairCtrl (d : Device) (v : Word) : Device :=
  let d := if v.getLsbD 0 then castleOp d else d
  if v.getLsbD 1 then startResync d else d

/-- PAIR's 32-bit registers. -/
def prWrite (d : Device) (src : Src) (o : Nat) (v : Word) : Device :=
  let p := d.pair
  match o with
  | 0x00 => pairCtrl d v
  | 0x0C => ifLegal d src (0x700000 + o) (pairCfgOk v) (fun d => { d with pair := { d.pair with
      check10us := v.extractLsb' 0 7, posTol := v.extractLsb' 8 16 } })
  | 0x28 => if v.getLsbD 8 then channelCastleOp d (Fin.ofNat 64 (fld v 0 6)) else d
  | 0x30 => { d with pair := { p with evt := w1c p.evt v 0 } }
  | 0x40 => { d with pair := { p with hbLoss := cntWrite p.hbLoss v } }
  | 0x44 => { d with pair := { p with resyncCnt := cntWrite p.resyncCnt v } }
  | _ => d

/-! ### ME (R311, R312, R326, R327, R435, R436) -/

/-- Engine k is STOPPED. -/
def engStopped (d : Device) (k : EngNo) : Bool := decide (d.eng[k].st = .stopped)

/-- Engine k's district is held. -/
def engHeld (d : Device) (k : EngNo) : Bool := decide (d.img.held = some (k.val / 2 + 9))

/-- An RWH register of engine k's block is writable: the engine is STOPPED or its district is held (R8, R435). -/
def engOpen (d : Device) (k : EngNo) : Bool := engStopped d k || engHeld d k

/-- The registers of R312 are writable: the engine is STOPPED, or its district is held and its drain, in which R312 refuses them, is over
(R363, R435; log 53). -/
def progOpen (d : Device) (k : EngNo) : Bool := engStopped d k || (engHeld d k && d.img.drained)

/-- Another context of the device has jrn = 1 for a channel (R309). -/
def jrnTaken (d : Device) (k : EngNo) (c : CtxNo) (n : Nat) : Bool :=
  (List.finRange 8).any (fun j => (List.finRange 32).any (fun x =>
    decide ((j, x) ≠ (k, c)) && decide (jrnChan (d.eng[j].ctx[x]).cfg = some n)))

/-- A configuration a context may take. -/
def ctxCfgOk (d : Device) (k : EngNo) (c : CtxNo) (v : Word) : Bool :=
  ctxCodesOk v && ctxPinsOk v && (match jrnChan v with
    | some n => !jrnTaken d k c n
    | none => true)

/-- MEk_CTRL: start, then stop (log 40). -/
def engCtrl (d : Device) (k : EngNo) (v : Word) : Device :=
  let d := if v.getLsbD 0 then startEngine d k else d
  if v.getLsbD 1 then stopEngine d k else d

/-- A pin cell's configuration as a host may write it: legal codes, join unchanged, an absorbed cell in one of its modes (R324, R327,
R436). -/
def pinCfgOk (d : Device) (p : PinNo) (v : Word) : Bool :=
  pinCodesOk v && decide (fld v 20 2 = (pinAt d p).cfg.toNat / 2 ^ 20 % 4) && (!absorbed d p || absorbedMode v)

/-- A pin cell's registers. -/
def pinWrite (d : Device) (src : Src) (a : Nat) (p : PinNo) (o : Nat) (v : Word) : Device :=
  let open_ := engOpen d (engOf p)
  match o with
  | 0x00 => ifOpen d src a open_ (fun d => ifLegal d src a (pinCfgOk d p v) (fun d =>
      onPin d p (fun c => setPin c (v.setWidth 22) c.div c.out)))
  | 0x04 => ifOpen d src a open_ (fun d => onPin d p (fun c => { c with div := v.setWidth 16 }))
  | 0x0C => onPin d p (fun c => { c with evt := w1c c.evt v 0 })
  | 0x10 => hostPush d p v
  | 0x28 => onPin d p (fun c => { c with out := v.setWidth 2 })
  | _ => d

/-- A program store word, or prog_busy (R9, R312, R363; log 53). -/
def progWrite (d : Device) (k : EngNo) (i : Nat) (v : Word) : Device :=
  if progOpen d k then onEng d k (fun e => { e with prog := tabSet (0 : Word) e.prog i v })
  else onEng d k (fun e => { e with progBusy := true })

/-- MEk_STAT. -/
def engStat (e : Engine) (v : Word) : Engine :=
  { e with progBusy := w1cBit e.progBusy v 2, startRefused := w1cBit e.startRefused v 3, faultSeen := w1cBit e.faultSeen v 4 }

/-- An engine's block; its RWH registers are changed while the engine is STOPPED or its district held, the program, the contexts'
configurations and their registers not in the drain of a hold (R8, R312, R363, R435; log 53). -/
def meWrite (d : Device) (src : Src) (a : Nat) (k : EngNo) (o : Nat) (v : Word) : Device :=
  if 0x8000 ≤ o then scrWrite d k (scrIndex d.eng[k] o) v
  else if 0x3000 ≤ o then
    (if o < 0x3800 then pinWrite d src a (pinNo (16 * k.val + (o - 0x3000) / 0x80)) (o % 0x80) v else d)
  else if 0x2000 ≤ o then
    (if o < 0x2800 then ifOpen d src a (progOpen d k) (fun d =>
      setGreg d k (Fin.ofNat 32 ((o - 0x2000) / 0x40)) (Fin.ofNat 16 (o / 4)) v) else d)
  else if 0x1000 ≤ o then progWrite d k ((o - 0x1000) / 4) v
  else if 0x100 ≤ o then
    (if o < 0x180 then
      let c : CtxNo := Fin.ofNat 32 (o / 4)
      ifOpen d src a (progOpen d k) (fun d => ifLegal d src a (ctxCfgOk d k c v) (fun d =>
        onCtx d k c (fun x => { x with cfg := v &&& 0x01FFFFFF#32 })))
    else d)
  else match o with
  | 0x0 => engCtrl d k v
  | 0x4 => onEng d k (fun e => engStat e v)
  | 0x8 => ifOpen d src a (engOpen d k) (fun d => onEng d k (fun e => { e with ctxEn := v }))
  | 0xC => onEng d k (fun e => { e with page := v.getLsbD 0 })
  | _ => d

/-! ### IMG, SVC (R366, R392, R437) -/

/-- IMG_CTRL: one action at a time (R437). -/
def imgCtrl (d : Device) (src : Src) (v : Word) : Device :=
  match fld v 0 4 with
  | 0 => d
  | 1 => loadCommand d false
  | 2 => loadCommand d true
  | 4 => holdCommand d src (fld v 8 4)
  | 8 => releaseCommand d src (fld v 8 4)
  | _ => glbErr d 1 src 0x1000000

/-- IMG. -/
def imgWrite (d : Device) (src : Src) (o : Nat) (v : Word) : Device :=
  match o with
  | 0x00 => imgCtrl d src v
  | 0x04 => { d with img := { d.img with src := v.setWidth 23 } }
  | 0x14 => ifLegal d src (0x1000000 + o) (holdCfgOk v) (fun d => { d with img := { d.img with holdMs := v.setWidth 14 } })
  | _ => d

/-- SVC. -/
def svcWrite (d : Device) (o : Nat) (v : Word) : Device :=
  let s := d.svc
  match o with
  | 0x20 => { d with svc := { s with ledDefaulted := w1cBit s.ledDefaulted v 18 } }
  | 0x28 => { d with svc := { s with flashErr := w1cBit s.flashErr v 17 } }
  | 0x30 => { d with svc := { s with crcErr := cntWrite s.crcErr v } }
  | 0x34 => { d with svc := { s with framing := cntWrite s.framing v } }
  | _ => d

/-! ### 64-bit registers (R5, R416) -/

/-- The low halves of the 64-bit registers that a write stages: RW and W1C ones (R5). TIM_CONV_IN's waits with the converter. -/
def stages (a : Nat) : Bool :=
  [0x400040, 0x400048, 0x600018, 0x700010].contains a || (decide (0x100000 ≤ a) && decide (a < 0x140000) && decide (a % 0x1000 = 0x620))

/-- A high half commits both halves of the register whose low half is at lo (R5). -/
def commitHigh (d : Device) (src : Src) (lo : Nat) (v : Word) : Device :=
  let x := commit64 d lo v
  if lo = 0x400040 then offsIncCommit d src v
  else if lo = 0x400048 then rateIncCommit d src v
  else if lo = 0x600018 then { d with con := { d.con with starve := d.con.starve &&& ~~~ x } }
  else if lo = 0x700010 then { d with pair := { d.pair with chCastleEn := x } }
  else toSentinel d (fun d => onWake d (offChan lo) (fun w => { w with set := { w.set with dmask := x } }))

/-! ### A write of the window -/

/-- The 32-bit register at an offset written; a read-only register and a reserved word ignore it (R8, R413). -/
def narrowWrite (d : Device) (src : Src) (a : Nat) (v : Word) : Device :=
  if a < 0x800 then tagWrite d src a v
  else if 0x10000 ≤ a ∧ a < 0x11000 then glbWrite d src (a - 0x10000) v
  else if 0x20000 ≤ a ∧ a < 0x21000 then latWrite d (a - 0x20000) v
  else if 0x100000 ≤ a ∧ a < 0x140000 then chWrite d (offChan a) (a % 0x1000) v
  else if 0x400000 ≤ a ∧ a < 0x401000 then timWrite d src (a - 0x400000) v
  else if 0x500000 ≤ a ∧ a < 0x504000 then rngWrite d src (a - 0x500000) v
  else if 0x580000 ≤ a ∧ a < 0x581000 then lckWrite d src (a - 0x580000) v
  else if 0x600000 ≤ a ∧ a < 0x630000 then conWrite d src (a - 0x600000) v
  else if 0x700000 ≤ a ∧ a < 0x701000 then prWrite d src (a - 0x700000) v
  else if 0x800000 ≤ a ∧ a < 0x880000 then meWrite d src a (offEng a) (a % 0x10000) v
  else if 0x1000000 ≤ a ∧ a < 0x1001000 then imgWrite d src (a - 0x1000000) v
  else if 0x1100000 ≤ a ∧ a < 0x1101000 then svcWrite d (a - 0x1100000) v
  else if 0x10000000 ≤ a ∧ a < 0x11000000 then sramPutWord d (a - 0x10000000) v
  else d

/-- A write of a mapped, aligned word (R5, R8). -/
def writeReg (d : Device) (src : Src) (a : Nat) (v : Word) : Device :=
  if a = 0x400068 then convPut d (.low v)
  else if a = 0x40006C then convPut d (.start v)
  else if stages a then stageLow d a v
  else if 4 ≤ a ∧ stages (a - 4) = true then commitHigh d src (a - 4) v
  else narrowWrite d src a v

/-! ### An access from outside (R4, R412) -/

/-- An access of another width or alignment sets bad_access (R4). -/
def badAccess (d : Device) (src : Src) (a : Nat) : Device := glbErr d 0 src a

/-- An access outside every block: UNMAPPED to a ring requester, the unmapped bit for the service port and the housekeeper (R412). -/
def unmappedAccess (d : Device) (src : Src) (a : Nat) : Device :=
  match src with
  | .ring _ => d
  | .service => glbErr d 3 src a
  | .housekeeper => glbErr d 3 src a

/-- A read access of one word and whether it was mapped. -/
def readAccess (d : Device) (src : Src) (a : Nat) : Word × Bool × Device :=
  if mapped d a then
    let (w, d) := readReg d a
    (w, true, d)
  else (0, false, unmappedAccess d src a)

/-- A write access of one word and whether it was mapped; a device reset in mid-request ends it. -/
def writeAccess (d : Device) (src : Src) (a : Nat) (v : Word) : Bool × Device :=
  if !d.glb.latUp then (true, d)
  else if mapped d a then (true, writeReg d src a v)
  else (false, unmappedAccess d src a)

/-- A register read by a requester: the word is answered, 0 to a read of another width or alignment (R4, R8, R412). -/
def localRead (d : Device) (src : Src) (a bytes : Nat) : Device :=
  if bytes ≠ 4 ∨ a % 4 ≠ 0 then answerWord (badAccess d src a) 0
  else
    let (w, _, d) := readAccess d src a
    answerWord d w

/-- A register write by a requester (R4, R8, R412). -/
def localWrite (d : Device) (src : Src) (a bytes : Nat) (v : Word) : Device :=
  if bytes ≠ 4 ∨ a % 4 ≠ 0 then badAccess d src a else (writeAccess d src a v).2

/-- n words read in ascending order (R242): the words and whether each was mapped. -/
def readMany (d : Device) (src : Src) (a n : Nat) : List (Word × Bool) × Device :=
  match n with
  | 0 => ([], d)
  | k + 1 =>
    let (w, m, d) := readAccess d src a
    let (ws, d) := readMany d src (a + 4) k
    ((w, m) :: ws, d)

/-- Words written in ascending order (R242): whether all were mapped. -/
def writeMany (d : Device) (src : Src) (a : Nat) (vs : List Word) : Bool × Device :=
  match vs with
  | [] => (true, d)
  | v :: r =>
    let (m, d) := writeAccess d src a v
    let (ms, d) := writeMany d src (a + 4) r
    (m && ms, d)

end Sys2Proof.Machine
end

