-- ==== Sys2Proof/Machine/AccessOps.lean ====
section
/-! DEFINITION. What accesses to this module's own window take of the concourse, and the accesses that wait for it (10_concourse.md R256,
R257, R259; 18_registers_fabric.md R427). -/

namespace Sys2Proof.Machine

/-! ### What one word takes -/

/-- The bank of the word that a read of a journal pops; an empty journal has none to read (R137, R256). -/
def popNeeds (d : Device) (n : ChanNo) : List ResNo :=
  let j := (chan d n).jn
  if j.rd < j.wr then [bankOf (jPlace j j.rd)] else []

/-- What an operation on the lock table takes; the copy of a shadow is not operated (R256, R289). -/
def lockNeeds (d : Device) : List ResNo := if locksCopied d then [] else [lockTable]

/-- What a read of a word of the window takes (R256, R427). -/
def readNeeds (d : Device) (a : Nat) : List ResNo :=
  if !mapped d a then []
  else if 0x10000000 ≤ a ∧ a < 0x11000000 then [bankOf (a - 0x10000000)]
  else if 0x100000 ≤ a ∧ a < 0x140000 then
    let n := offChan a
    let o := a % 0x1000
    if popsJournal o then popNeeds d n
    else if 0x300 ≤ o ∧ o < 0x360 then lqBanks d n (chan d n).lq.sel.toFin
    else []
  else []

/-- What a write of a word of the window takes (R256, R427). -/
def writeNeeds (d : Device) (a : Nat) (v : Word) : List ResNo :=
  if !mapped d a then []
  else if 0x10000000 ≤ a ∧ a < 0x11000000 then [bankOf (a - 0x10000000)]
  else if 0x580000 ≤ a ∧ a < 0x581000 then
    (if a % 16 = 0xC ∨ (a % 16 = 0 ∧ v.getLsbD 11 = true) then lockNeeds d else [])
  else if 0x100000 ≤ a ∧ a < 0x140000 then
    let n := offChan a
    let o := a % 0x1000
    if 0x300 ≤ o ∧ o < 0x360 then freeEntryNeeds d n (chan d n).lq.sel.toFin
    else if o = 0x204 ∧ v.getLsbD 8 = true then freeEntryNeeds d n (Fin.ofNat 128 (fld v 0 7))
    else []
  else []

/-- What the words of a read take (R242, R256). -/
def readManyNeeds (d : Device) (a n : Nat) : List ResNo := inRank ((List.range n).flatMap (fun i => readNeeds d (a + 4 * i)))

/-- What the words of a write take (R242, R256). -/
def writeManyNeeds (d : Device) (a : Nat) (vs : List Word) : List ResNo :=
  inRank ((List.range vs.length).flatMap (fun i => writeNeeds d (a + 4 * i) (vs.getD i 0)))

/-! ### Accesses by commands of their own -/

/-- The requester that makes an access for its source (R255): the housekeeper for itself and for the service port, a drop queue for a
station of the ring (log 133). -/
def srcReq (src : Src) : Requester :=
  match src with
  | .ring _ => (72, .whole)
  | .service => (75, .whole)
  | .housekeeper => (75, .whole)

/-- The requester of an access (log 133): of a commit that a TXQ has left behind, the launch-queue unit (R335, R462). -/
def accessReq (x : Access) : Requester :=
  match x with
  | .read src _ => srcReq src
  | .write src _ _ => srcReq src
  | .pop _ => (72, .whole)
  | .window _ _ => (72, .whole)
  | .lqWin _ _ _ => (72, .whole)
  | .commit _ _ => (72, .whole)
  | .txq n _ => (qChan n, .queue)
  | .mem _ _ => (72, .whole)
  | .lock src _ _ _ => srcReq src

/-- What an access takes (R256). -/
def accessNeeds (d : Device) (x : Access) : List ResNo :=
  match x with
  | .read _ a => readNeeds d a
  | .write _ a v => writeNeeds d a v
  | .pop n => popNeeds d n
  | .window n count => if count = 0 then [] else popNeeds d n
  | .lqWin n _ _ => freeEntryNeeds d n (chan d n).lq.sel.toFin
  | .commit n i => freeEntryNeeds d n i
  | .txq n i => freeEntryNeeds d n i
  | .mem a _ => [bankOf a]
  | .lock _ _ _ _ => lockNeeds d

/-- An access takes place. -/
def accessRun (d : Device) (x : Access) : Device :=
  match x with
  | .read src a =>
    let (w, _, d) := readAccess d src a
    answerWord d w
  | .write src a v => (writeAccess d src a v).2
  | .pop n =>
    let (w, d) := readPop d n
    answerWord d w
  | .window n count => windowRead d n count
  | .lqWin n w v => windowWrite d n w v
  | .commit n i => hostCommit d n i
  | .txq n i => (commitEntry d n i).2
  | .mem a w => sramPutWord d a w
  | .lock src i op lease => localLock d src i op lease

/-- An access joins those that wait. -/
def accessWait (d : Device) (x : Access) : Device := { d with con := { d.con with access := d.con.access ++ [x] } }

/-- An earlier access of the same requester waits. -/
def accessBehind (d : Device) (x : Access) : Bool := d.con.access.any (fun y => decide (accessReq y = accessReq x))

/-- An access comes (R256, R259): one that can have all it takes of the concourse at once takes place; another waits, and the later ones of
its requester wait behind it (R243; log 133). -/
def accessStep (d : Device) (x : Access) : Device :=
  let rs := accessNeeds d x
  if accessBehind d x then accessWait d x
  else if canAll d (accessReq x) rs then accessRun (useAll d (accessReq x) .access rs) x
  else awaitAll (accessWait d x) (accessReq x) .access rs

/-- The accesses that waited go on, those of one requester in their order: each that now has what it takes takes place. -/
def accessGo (d : Device) (xs : List Access) : Device :=
  match xs with
  | [] => d
  | x :: r => accessGo (accessStep d x) r

/-- All accesses that wait are tried again. -/
def accessKick (d : Device) : Device :=
  if d.con.access = [] then d
  else accessGo { d with con := { d.con with
    access := [], waits := d.con.waits.filter (fun y => decide (y.work ≠ .access)) } } d.con.access

/-- An access of one word by its command (R4): one of another width or alignment is refused at once. -/
def wordRead (d : Device) (src : Src) (a bytes : Nat) : Device :=
  if bytes ≠ 4 ∨ a % 4 ≠ 0 then localRead d src a bytes else accessStep d (.read src a)

/-- A write of one word by its command (R4). -/
def wordWrite (d : Device) (src : Src) (a bytes : Nat) (v : Word) : Device :=
  if bytes ≠ 4 ∨ a % 4 ≠ 0 then localWrite d src a bytes v else accessStep d (.write src a v)

end Sys2Proof.Machine
end

