-- ==== Sys2Proof/Machine/ServiceOps.lean ====
section
/-! DEFINITION. The shared operations of the service unit: NSP frames, responses, local and ring accesses, update sessions, trial,
commit, ping (15_service_update.md). -/

namespace Sys2Proof.Machine

/-! ### Frames (R370, R371) -/

/-- One bit of CRC-16/CCITT-FALSE (R371). -/
def crc16Bit (c : BitVec 16) : BitVec 16 := if c.getLsbD 15 then (c <<< 1) ^^^ 0x1021#16 else c <<< 1

/-- One byte of CRC-16/CCITT-FALSE. -/
def crc16Byte (c : BitVec 16) (b : Byte) : BitVec 16 :=
  crc16Bit (crc16Bit (crc16Bit (crc16Bit (crc16Bit (crc16Bit (crc16Bit (crc16Bit (c ^^^ (b.setWidth 16 <<< 8)))))))))

/-- CRC-16/CCITT-FALSE of a byte string (R371). -/
def crc16 (bs : List Byte) : BitVec 16 := bs.foldl crc16Byte 0xFFFF#16

/-- A request frame from its command byte to its last payload byte, over which its CRC runs (R370, R371). -/
def requestBody (code : Byte) (q : NspReq) : List Byte :=
  [code, q.seq, q.zero] ++ leBytes 2 q.payload.length ++ leBytes 6 q.addr.toNat ++ q.payload

/-- A response frame (R370, R371): the CRC goes high byte first. -/
def responseFrame (code seq : Byte) (status : Nat) (payload : List Byte) : List Byte :=
  let body := [code ||| 0x80#8, seq, BitVec.ofNat 8 status] ++ leBytes 2 payload.length ++ payload
  let c := crc16 body
  0xA5#8 :: (body ++ [BitVec.ofNat 8 (c.toNat / 256), BitVec.ofNat 8 c.toNat])

/-- One NSP_RESP cell to a station (R219, R375): seq_echo names the request cell, the epoch field the ring status. -/
def tunnelCell (d : Device) (dst : BitVec 10) (echo : BitVec 16) (status : BitVec 8) (payload : List Byte) : Device :=
  match routeTo d dst with
  | some s =>
    let (c, d) := newCell d 14 dst status payload
    queueOut d qHouse s { c with seqEcho := echo }
  | none => d

/-- Part i of a frame in tunnelled cells (R375). -/
def tunnelPart (f : List Byte) (i last : Nat) : List Byte :=
  leBytes 2 f.length ++ leBytes 1 i ++ leBytes 1 last ++ fitTo 60 (f.drop (60 * i))

/-- A response frame tunnelled in NSP_RESP cells of 60 bytes (R375). -/
def tunnelFrame (d : Device) (dst : BitVec 10) (echo : BitVec 16) (f : List Byte) : Device :=
  let n := (f.length + 59) / 60
  (List.range n).foldl (fun d i => tunnelCell d dst echo 0 (tunnelPart f i (n - 1))) d

/-- A newer request of the service port has come (R369). -/
def portWaits (d : Device) : Bool := d.svc.nspQueue.any (fun e => decide (e.1 = NspFrom.port))

/-- A response is ready (R369, R375); a device reset in mid-request leaves none, and a newer request of the port discards it. -/
def nspReply (d : Device) (o : NspFrom) (echo : BitVec 16) (f : List Byte) : Device :=
  if !d.glb.latUp then d
  else match o with
  | .port => if portWaits d then d else { d with svc := { d.svc with resp := some f } }
  | .station n => tunnelFrame d n echo f

/-- An answer: status and payload; none while ring answers are outstanding. -/
abbrev Answer := Option (Nat × List Byte) × Device

/-- A status without a payload. -/
def status (d : Device) (s : Nat) : Answer := (some (s, []), d)

/-! ### READ and WRITE (R373, R374) -/

/-- The requester of a register access (R419). -/
def nspSrc (o : NspFrom) : Src :=
  match o with
  | .port => .service
  | .station n => .ring n

/-- Where an NSP access goes. -/
inductive NspTarget where
  | here (off : Nat)
  | ring (a : BitVec 41)
  | bad (status : Nat)
  deriving DecidableEq, Repr

/-- The address of a READ or WRITE (R237, R370, R374, R375): this module's own window, named as local, by this station's number or by a
pair address that it is recorded to hold; another station, from the service port alone; or a format error. -/
def nspTarget (d : Device) (o : NspFrom) (q : NspReq) : NspTarget :=
  let a : BitVec 41 := q.addr.setWidth 41
  let off := q.addr.toNat % 2 ^ 30
  let num := a.toNat / 2 ^ 30 % 1024
  if q.addr.toNat / 2 ^ 41 % 64 ≠ 0 then .bad 2
  else if q.addr.getLsbD 47 then (if a.toNat / 2 ^ 30 ≠ 0 ∨ off % 4 ≠ 0 then .bad 2 else .here off)
  else
    let own := !a.getLsbD 40 && d.ring.numbered && decide (num = (ownNumber d).toNat)
    match o with
    | .station _ => if own = true ∧ off % 4 = 0 then .here off else .bad 2
    | .port =>
      if off % 4 ≠ 0 ∨ (a.getLsbD 40 && a.getLsbD 39) = true then .bad 9
      else if own then .here off
      else if a.getLsbD 40 && (pairOf d num).valid && d.ring.numbered && decide (pairHolder d num off = ownNumber d) then .here off
      else .ring a

/-- A READ or WRITE refused for its address (R374); one of this module's own window that is not aligned sets bad_access as well (R4). -/
def nspRefused (d : Device) (o : NspFrom) (q : NspReq) (s : Nat) : Answer :=
  let off := q.addr.toNat % 2 ^ 30
  let own := !q.addr.getLsbD 40 && d.ring.numbered && decide (q.addr.toNat / 2 ^ 30 % 1024 = (ownNumber d).toNat)
  let local_ := if q.addr.getLsbD 47 then decide (q.addr.toNat % 2 ^ 47 / 2 ^ 30 = 0) else own && decide (q.addr.toNat / 2 ^ 41 % 64 = 0)
  status (if decide (s = 2) && local_ && decide (off % 4 ≠ 0) then badAccess d (nspSrc o) off else d) s

/-- In recovery mode the GLB and SVC blocks alone are there to be read (R373). -/
def nspReadable (d : Device) (a : Nat) : Bool :=
  !d.svc.recovery || (decide (0x10000 ≤ a) && decide (a < 0x11000)) || (decide (0x1100000 ≤ a) && decide (a < 0x1101000))

/-- Words of this module's own window read (R242, R374). -/
def nspReadMany (d : Device) (src : Src) (a n : Nat) : List (Word × Bool) × Device :=
  match n with
  | 0 => ([], d)
  | k + 1 =>
    let (w, m, d) := if nspReadable d a then readAccess d src a else (0, false, unmappedAccess d src a)
    let (ws, d) := nspReadMany d src (a + 4) k
    ((w, m) :: ws, d)

/-- The bytes of words, little-endian. -/
def bytesOf (ws : List Word) : List Byte := ws.flatMap (fun w => leBytes 4 w.toNat)

/-- A request for a ring address can leave: the destination is known and reachable (R235, R238). -/
def nspRouted (d : Device) (a : BitVec 41) : Bool :=
  match addressed d (a.getLsbD 40) (a.toNat / 2 ^ 30 % 1024) (a.toNat % 2 ^ 30) with
  | some (st, _, _) => (routeTo d st).isSome
  | none => false

/-- The next part of the waiting READ or WRITE leaves: one RD_REQ, or a WR_REQ of at most 14 words (R240, R374); without a free tag it
waits (R244). -/
def nspSend (d : Device) : Device :=
  match d.svc.waiting with
  | none => d
  | some (code, seq, a, todo, got) =>
    let num := a.toNat / 2 ^ 30 % 1024
    let off := a.toNat % 2 ^ 30
    let now := if code = 1 then todo else todo.take 14
    let body := if code = 1 then readBody off now.length
      else leBytes 4 off ++ leBytes 1 (now.length - 1) ++ List.replicate 3 0 ++ bytesOf now
    match sendRequest d (if code = 1 then .nspRead else .nspWrite) (a.getLsbD 40) num off (if code = 1 then 1 else 3) body [] with
    | (none, d) => d
    | (some _, d) => { d with svc := { d.svc with
        waiting := some (code, seq, a + BitVec.ofNat 41 (4 * now.length), todo.drop now.length, got) } }

/-- A request of the service port's own is outstanding. -/
def nspOut (d : Device) : Bool := d.ring.reqs.any (fun r => decide (r.why = .nspRead) || decide (r.why = .nspWrite))

/-- A READ or WRITE of another station begins (R374). -/
def nspBegin (d : Device) (code : Byte) (q : NspReq) (a : BitVec 41) (todo : List Word) : Answer :=
  if !nspRouted d a then status d 7
  else (none, nspSend { d with svc := { d.svc with waiting := some (code, q.seq, a, todo, []) } })

/-- READ (R373, R374). -/
def nspRead (d : Device) (o : NspFrom) (q : NspReq) : Answer :=
  let n := leAt q.payload 0 1 + 1
  if q.payload.length ≠ 1 then status d 0x12
  else if 64 < n then status d 2
  else match nspTarget d o q with
  | .bad s => nspRefused d o q s
  | .here off =>
    let (ws, d) := nspReadMany d (nspSrc o) off n
    if ws.all (fun w => w.2) then (some (0, bytesOf (ws.map (fun w => w.1))), d) else status d 1
  | .ring a => nspBegin d 1 q a (List.replicate n 0)

/-- WRITE (R373, R374). -/
def nspWrite (d : Device) (o : NspFrom) (q : NspReq) : Answer :=
  let len := q.payload.length
  if len = 0 ∨ 256 < len ∨ len % 4 ≠ 0 then status d 0x12
  else match nspTarget d o q with
  | .bad s => nspRefused d o q s
  | .here off =>
    let (ok, d) := writeMany d (nspSrc o) off (wordsOf q.payload)
    status d (if ok then 0 else 1)
  | .ring a => nspBegin d 2 q a (wordsOf q.payload)

/-! ### Update sessions (R380 to R382) -/

/-- The owner code of a source (R380). -/
def ownerOf (o : NspFrom) : BitVec 11 :=
  match o with
  | .port => 0x400#11
  | .station n => n.setWidth 11

/-- BUSY, with the owner of the open session in the payload (R372, R380). -/
def busyWith (d : Device) (x : Session) : Answer := (some (3, leBytes 2 x.owner.toNat), d)

/-- The inactive slot; in recovery mode slot A (R380, R390). -/
def otherSlot (d : Device) : Bool := !d.svc.slot && !d.svc.recovery

/-- 30 s from now (R380). -/
def sessionDue (d : Device) : Raw := rawAdd d.tim.raw (30000 * msTicks)

/-- The open session ends without a close (R380, R391). -/
def endSession (d : Device) : Device :=
  match d.svc.session with
  | none => d
  | some x => updateEvent { d with svc := { d.svc with session := none } } 3 (otherSlot d) 0 x.owner.toNat

/-- An erase or program failure (R381, R392). -/
def flashFails (d : Device) : Device := { d with svc := { d.svc with flashErr := true } }

/-- UPDATE_OPEN of a valid length: the closed mark reads erased, then the session is open (R380, R381). -/
def openSession (d : Device) (o : NspFrom) (len : Nat) : Answer :=
  let b := otherSlot d
  let needs := decide (slotField d b 32 ≠ 0xFFFFFFFF#32)
  if !d.svc.sfdpOk then status d 0x1A
  else if needs && d.flash.broken then status (endSession (flashFails d)) 0x1A
  else
    let d := if needs then flashErase d (slotBase b / 65536) else d
    let x : Session := { owner := ownerOf o, length := len, written := 0, last := none, due := sessionDue d }
    let d := updateEvent { d with svc := { d.svc with session := some x } } 1 b 0 (ownerOf o).toNat
    (some (0, leBytes 1 b.toNat), d)

/-- UPDATE_OPEN (R373, R380, R381). -/
def nspOpen (d : Device) (o : NspFrom) (q : NspReq) : Answer :=
  let len := leAt q.payload 0 4
  let go : Answer :=
    if d.svc.trial then status d 0x16
    else if len < 64 ∨ 0x800000 < len ∨ len % 4 ≠ 0 then status d 0x12
    else openSession d o len
  match d.svc.session with
  | some x => if x.owner = ownerOf o then go else busyWith d x
  | none => go

/-- Each sector that a chunk is the first to reach is erased (R381). -/
def eraseReached (d : Device) (base off len : Nat) : Device :=
  (List.range 128).foldl (fun d s => if off ≤ s * 65536 ∧ s * 65536 < off + len then flashErase d (base / 65536 + s) else d) d

/-- Content bytes as they are programmed: the state area, bytes 32 to 63 of the slot, stays erased (R379). -/
def contentBytes (off : Nat) (bs : List Byte) : List Byte :=
  (List.range bs.length).map (fun i => if 32 ≤ off + i ∧ off + i < 64 then 0xFF#8 else bs.getD i 0)

/-- A chunk in its order is programmed (R381). -/
def programChunk (d : Device) (x : Session) (off : Nat) (bs : List Byte) : Answer :=
  if d.flash.broken then status (endSession (flashFails d)) 0x1A
  else
    let base := slotBase (otherSlot d)
    let d := flashProgram (eraseReached d base off bs.length) (base + off) (contentBytes off bs)
    status { d with svc := { d.svc with
      session := some { x with written := off + bs.length, last := some (off, bs) } } } 0

/-- UPDATE_CHUNK (R373, R380, R381). -/
def nspChunk (d : Device) (o : NspFrom) (q : NspReq) : Answer :=
  let off := leAt q.payload 0 4
  let bs := q.payload.drop 4
  match d.svc.session with
  | none => status d 0x13
  | some x =>
    if x.owner ≠ ownerOf o then busyWith d x
    else if x.last = some (off, bs) then status d 0
    else if off ≠ x.written then status d 0x14
    else if x.length < off + bs.length then status d 0x12
    else programChunk d x off bs

/-- Checks 2 to 4 of a close (R382) on the content of slot b: magic, the two parts within the content, both CRCs. -/
def slotChecks (d : Device) (b : Bool) (len : Nat) : Bool :=
  let f := fun o => (slotField d b o).toNat
  slotMagic d b
    && decide (f 4 + f 8 ≤ len) && decide (f 16 + f 20 ≤ len)
    && decide (crc32c (flashBytes d (slotBase b + f 4) (f 8)) = slotField d b 12)
    && decide (crc32c (flashBytes d (slotBase b + 64) (len - 64)) = slotField d b 24)

/-- The sequence of a closed slot (R382): the later, by serial order, of the other slot's plus 1 and 1. -/
def closeSeq (d : Device) (b : Bool) : Word :=
  let s := slotSeq d (!b) + 1
  if laterThan s 1 then s else 1

/-- The payload of UPDATE_CLOSE (R373): the load code and the failing offset. -/
def closePayload (code off : Nat) : List Byte := leBytes 1 code ++ leBytes 3 0 ++ leBytes 4 off

/-- Every check has passed: sequence, closed mark, in recovery mode the committed mark; the event (R382, R390, R391). -/
def closeSlot (d : Device) (x : Session) (b : Bool) : Answer :=
  if d.flash.broken then status (endSession (flashFails d)) 0x1A
  else
    let d := setSlotMark (slotProgram d b 36 (closeSeq d b)) b 32
    let d := if d.svc.recovery then setSlotMark d b 48 else d
    let d := updateEvent { d with svc := { d.svc with session := none } } 2 b 0 x.owner.toNat
    (some (0, closePayload 1 0), d)

/-- UPDATE_CLOSE (R373, R380, R382). -/
def nspClose (d : Device) (o : NspFrom) (_q : NspReq) : Answer :=
  let b := otherSlot d
  match d.svc.session with
  | none => status d 0x13
  | some x =>
    if x.owner ≠ ownerOf o then busyWith d x
    else if x.written ≠ x.length then status (endSession d) 0x12
    else if !slotChecks d b x.length then status (endSession d) 0x15
    else
      let img := slotImage d b
      match (validate d img img.length false true).1 with
      | some r => (some (0x15, closePayload r.code r.offs), endSession d)
      | none => closeSlot d x b

/-! ### COMMIT, SLOT_SELECT, RECOVERY_PING (R376, R383, R385) -/

/-- The ledger at COMMIT (R385, R388): the trial's own copy is confirmed. -/
def commitLedger (d : Device) : Device :=
  let c := d.svc.ledCopy
  if !d.svc.ledTrial then d
  else if ledgerReadable (ledgerAt d c) then ledgerShow (ledgerConfirm d c) c false
  else ledgerShow d (!c) false

/-- COMMIT (R385, R388, R391). -/
def nspCommit (d : Device) (_o : NspFrom) (_q : NspReq) : Answer :=
  if !d.svc.trial then status d 0x17
  else if d.flash.broken then status (flashFails d) 0x1A
  else
    let d := setSlotMark d d.svc.slot 48
    let d := commitLedger { d with svc := { d.svc with trial := false, trialEnd := none } }
    status (updateEvent d 5 d.svc.slot 0 0) 0

/-- When a restart asked for by o is due (R383): 10 ms after its response has left, or is ready on the service port or has no way to leave by; an
earlier one stands (log 161). -/
def restartAfter (d : Device) (o : NspFrom) : Restart :=
  let now := Restart.due (rawAdd d.tim.raw (10 * msTicks))
  if d.svc.restartDue ≠ .none then d.svc.restartDue
  else match o with
  | .port => now
  | .station n => if (routeTo d n).isSome then .afterResponse n else now

/-- The restart flag (R383, R291): the device, or none where an active member's castling is refused and force is not set. -/
def restartAsked (d : Device) (o : NspFrom) (flags : Nat) : Option Device :=
  if flags % 2 = 0 then some d
  else
    let due := fun (d : Device) => { d with svc := { d.svc with restartDue := restartAfter d o } }
    if d.pair.role = .active then
      let t := castleOp d
      if t.pair.resCode = 1 ∨ flags / 2 % 2 = 1 then some (due t) else none
    else some (due d)

/-- The trial seconds (R383): 0 is taken as 60; out of range none. -/
def trialSeconds (v : Nat) : Option Nat := if v = 0 then some 60 else if 10 ≤ v ∧ v ≤ 3600 then some v else none

/-- A slot that TRIAL can arm (R383): closed, with no trial, committed or failed mark, and no seconds programmed yet. -/
def armable (d : Device) (b : Bool) : Bool :=
  slotMark d b 32 && decide (slotField d b 40 = 0xFFFFFFFF#32) && !slotMark d b 44 && !slotMark d b 48 && !slotMark d b 52

/-- An armed trial that has not started (R383). -/
def armedNow (d : Device) (b : Bool) : Bool :=
  slotMark d b 32 && trialArmed d b && !slotMark d b 44 && !slotMark d b 52

/-- A change of marks, with the restart that the flags ask for (R383): refused castling changes nothing. -/
def selectDo (d : Device) (o : NspFrom) (flags : Nat) (f : Device → Device) : Answer :=
  match restartAsked d o flags with
  | none => status d 0x19
  | some t => status (f t) 0

/-- SLOT_SELECT (R383): while a session is open BUSY; then the action. -/
def nspSelect (d : Device) (o : NspFrom) (q : NspReq) : Answer :=
  let flags := leAt q.payload 1 1
  let b := otherSlot d
  match d.svc.session with
  | some x => busyWith d x
  | none =>
    match leAt q.payload 0 1 with
    | 1 =>
      match trialSeconds (leAt q.payload 2 2) with
      | none => status d 2
      | some secs =>
        if !armable d b then status d 0x18
        else if d.flash.broken then status (flashFails d) 0x1A
        else selectDo d o flags (fun d => slotProgram d b 40 (BitVec.ofNat 32 (0xFFFF0000 + secs)))
    | 2 =>
      if !armedNow d b then status d 0x18
      else if d.flash.broken then status (flashFails d) 0x1A
      else selectDo d o flags (fun d => failSlot d b 1)
    | 3 => selectDo d o flags id
    | _ => status d 2

/-- The payload of RECOVERY_PING (R376). -/
def pingPayload (d : Device) : List Byte :=
  let st := fun b => slotState d b + 16 * slotCause d b
  let number := if d.ring.numbered then (ownNumber d).toNat else 0xFFFF
  leBytes 2 0x6420 ++ leBytes 1 d.glb.revision.toNat ++ leBytes 1 d.svc.recovery.toNat
    ++ leBytes 1 (if d.svc.recovery then 0xFF else d.svc.slot.toNat) ++ leBytes 1 d.svc.trial.toNat ++ leBytes 2 number
    ++ leBytes 1 (st false) ++ leBytes 1 (st true) ++ leBytes 2 0
    ++ leBytes 4 (slotSeq d false).toNat ++ leBytes 4 (slotSeq d true).toNat ++ leBytes 4 0
    ++ bytesOf ((List.range 8).map (fun i => tagWord d (2 + i)))

/-- RECOVERY_PING (R376). -/
def nspPing (d : Device) (_o : NspFrom) (_q : NspReq) : Answer := (some (0, pingPayload d), d)

/-! ### A request as a whole (R369, R371 to R375) -/

/-- A known command code. -/
def knownCode (code : Byte) : Bool := [0x01#8, 0x02#8, 0x10#8, 0x11#8, 0x12#8, 0x13#8, 0x14#8, 0x15#8].contains code

/-- The command is known and available in this mode (R373). -/
def available (d : Device) (code : Byte) (q : NspReq) : Bool :=
  knownCode code && (!d.svc.recovery || (decide (code ≠ 0x02#8) && decide (code ≠ 0x13#8)
    && (decide (code ≠ 0x14#8) || decide (leAt q.payload 0 1 = 3))))

/-- The payload length a command other than READ and WRITE takes (R373). -/
def lengthOk (code : Byte) (len : Nat) : Bool :=
  match code.toNat with
  | 0x10 => decide (len = 4)
  | 0x11 => decide (8 ≤ len) && decide (len ≤ 1028) && decide (len % 4 = 0)
  | 0x14 => decide (len = 4)
  | _ => decide (len = 0)

/-- The response to the owner's UPDATE_OPEN or UPDATE_CHUNK starts the session's 30 s anew (R380). -/
def touched (o : NspFrom) (x : Answer) : Answer :=
  match x.2.svc.session with
  | some z =>
    if z.owner = ownerOf o then
      let d := { x.2 with svc := { x.2.svc with session := some { z with due := sessionDue x.2 } } }
      (x.1, d)
    else x
  | none => x

/-- An UPDATE_CLOSE of the owner ends the session also where its length or its address is refused (R380). -/
def refusedClose (d : Device) (o : NspFrom) (code : Byte) : Device :=
  match d.svc.session with
  | some x => if decide (code = 0x12#8) && decide (x.owner = ownerOf o) then endSession d else d
  | none => d

/-- A command other than READ and WRITE (R373): its length, its address, its effect. -/
def nspOther (d : Device) (o : NspFrom) (code : Byte) (q : NspReq) : Answer :=
  if !lengthOk code q.payload.length then status (refusedClose d o code) 0x12
  else if q.addr ≠ 0x800000000000#48 then status (refusedClose d o code) 2
  else match code.toNat with
  | 0x10 => nspOpen d o q
  | 0x11 => nspChunk d o q
  | 0x12 => nspClose d o q
  | 0x13 => nspCommit d o q
  | 0x14 => nspSelect d o q
  | _ => nspPing d o q

/-- The effect of a known command. -/
def nspEffect (d : Device) (o : NspFrom) (code : Byte) (q : NspReq) : Answer :=
  match code.toNat with
  | 0x01 => nspRead d o q
  | 0x02 => nspWrite d o q
  | 0x10 => touched o (nspOther d o code q)
  | 0x11 => touched o (nspOther d o code q)
  | _ => nspOther d o code q

/-- One request executed (R371 to R374): its CRC, then its command, then the rest (log 42). -/
def nspAnswerOf (d : Device) (o : NspFrom) (code : Byte) (q : NspReq) : Answer :=
  if q.crc ≠ crc16 (requestBody code q) then status { d with svc := { d.svc with crcErr := cntUp d.svc.crcErr } } 0x10
  else if !available d code q then status d 0x11
  else nspEffect d o code q

/-- What a READ or WRITE of this module's own window takes of the concourse (R242, R256). -/
def nspNeeds (d : Device) (o : NspFrom) (code : Byte) (q : NspReq) : List ResNo :=
  if q.crc ≠ crc16 (requestBody code q) ∨ available d code q = false then []
  else match nspTarget d o q with
  | .here off =>
    let n := leAt q.payload 0 1 + 1
    if code = 1 then (if q.payload.length ≠ 1 ∨ 64 < n then [] else readManyNeeds d off n)
    else if code = 2 then
      (if 256 < q.payload.length ∨ q.payload.length % 4 ≠ 0 then [] else writeManyNeeds d off (wordsOf q.payload))
    else []
  | _ => []

/-- The housekeeper as requester (R255). -/
def houseReq : Requester := (qHouse, .whole)

/-- A request runs; its answer goes where it came from. -/
def nspRun (d : Device) (o : NspFrom) (echo : BitVec 16) (code : Byte) (q : NspReq) : Device :=
  match nspAnswerOf d o code q with
  | (none, d) => d
  | (some (s, p), d) => nspReply d o echo (responseFrame code q.seq s p)

/-- The requests that wait go on, one at a time (R374), each once it has what it takes of the concourse (R256, R257). -/
def nspDrain (d : Device) (es : List (NspFrom × BitVec 16 × Byte × NspReq)) : Device :=
  match es with
  | [] => d
  | e :: r =>
    let keep := { d with svc := { d.svc with nspQueue := e :: r } }
    let rs := nspNeeds d e.1 e.2.2.1 e.2.2.2
    if !d.glb.latUp then d
    else if d.svc.waiting.isSome then keep
    else if canAll d houseReq rs then
      let d := useAll { d with svc := { d.svc with nspQueue := r } } houseReq .nsp rs
      nspDrain (nspRun d e.1 e.2.1 e.2.2.1 e.2.2.2) r
    else awaitAll keep houseReq .nsp rs

/-- A request reaches the housekeeper (R369, R374): a new one of the service port discards an unread response, and takes the place of one
of the port that the housekeeper has not begun, since the port holds one (log 124). -/
def nspArrive (d : Device) (o : NspFrom) (echo : BitVec 16) (code : Byte) (q : NspReq) : Device :=
  let d := if o = .port then { d with svc := { d.svc with
    resp := none, nspQueue := d.svc.nspQueue.filter (fun e => decide (e.1 ≠ NspFrom.port)) } } else d
  let es := d.svc.nspQueue ++ [(o, echo, code, q)]
  nspDrain { noWait d houseReq .nsp with svc := { d.svc with nspQueue := [] } } es

/-- The waiting READ or WRITE is over: it is answered, and the requests behind it go on. -/
def nspFinish (d : Device) (code seq : Byte) (s : Nat) (payload : List Byte) : Device :=
  let d := { d with svc := { d.svc with waiting := none } }
  let d := nspReply d .port 0 (responseFrame code seq s payload)
  nspDrain d d.svc.nspQueue

/-- A part of the waiting READ or WRITE has completed with a status (R374). -/
def nspPartDone (d : Device) (s : Nat) (data : List Word) : Device :=
  match d.svc.waiting with
  | none => d
  | some (code, seq, a, todo, got) =>
    if s ≠ 0 then nspFinish d code seq s []
    else if todo = [] then nspFinish d code seq 0 (if code = 1 then bytesOf (got ++ data) else [])
    else if !nspRouted d a then nspFinish d code seq 7 []
    else nspSend d

/-- A request tag has become free: a part that waits for one leaves (R244), or is answered NO_ROUTE where its route has gone (R235). -/
def nspKick (d : Device) : Device :=
  match d.svc.waiting with
  | some (code, seq, a, _ :: _, _) =>
    if nspOut d then d else if !nspRouted d a then nspFinish d code seq 7 [] else nspSend d
  | _ => d

/-- The seq of the request cell that a response to this source repeats (R219). -/
def echoSeq (d : Device) (o : NspFrom) : BitVec 16 :=
  match o with
  | .port => 0
  | .station n => tabGet (0 : BitVec 16) d.svc.nspSeen n.toNat

/-- A request of a known command (R374). -/
def nspCommand (d : Device) (o : NspFrom) (code : Byte) (q : NspReq) : Device := nspArrive d o (echoSeq d o) code q

/-- A SLOT_SELECT of one action. -/
def nspAction (d : Device) (o : NspFrom) (action : Nat) (q : NspReq) : Device :=
  if leAt q.payload 0 1 = action then nspCommand d o 0x14 q else d

/-! ### NSP over the ring (R375, R376) -/

/-- A frame from sync to CRC, taken apart; none where its sync or its length is not that of one request frame. -/
def parseFrame (f : List Byte) : Option (Byte × NspReq) :=
  let len := leAt f 4 2
  if decide (f.length = 14 + len) && decide (len ≤ 1028) && decide (f.head? = some 0xA5#8) then
    some (f.getD 1 0, { seq := f.getD 2 0, zero := f.getD 3 0, addr := BitVec.ofNat 48 (leAt f 6 6), payload := (f.drop 12).take len,
                        crc := BitVec.ofNat 16 (256 * leAt f (12 + len) 1 + leAt f (13 + len) 1) })
  else none

/-- A complete frame of a station is executed; one that is no request frame is discarded (R370, R375). -/
def nspFrame (d : Device) (n : BitVec 10) (f : List Byte) : Device :=
  match parseFrame f with
  | some (code, q) => nspCommand d (.station n) code q
  | none => d

/-- The reassemblies of all other stations. -/
def reasmLess (d : Device) (n : BitVec 10) : List Reasm := d.svc.reasm.filter (fun r => decide (r.station ≠ n))

/-- A station's partial frame is discarded (R375). -/
def dropPartial (d : Device) (n : BitVec 10) : Device := { d with svc := { d.svc with reasm := reasmLess d n } }

/-- A part joins a station's reassembly, complete or not (R375). -/
def takePart (d : Device) (x : Reasm) : Device :=
  if x.next = x.lastPart + 1 then nspFrame (dropPartial d x.station) x.station (x.bytes.take x.length)
  else { d with svc := { d.svc with reasm := reasmLess d x.station ++ [x] } }

/-- A part of a tunnelled request (R375): part 0 begins anew; a part out of order discards the partial frame. -/
def nspPart (d : Device) (c : RCell) : Device :=
  let d := { d with svc := { d.svc with nspSeen := tabSet (0 : BitVec 16) d.svc.nspSeen c.src.toNat c.seq } }
  let len := leAt c.payload 0 2
  let i := leAt c.payload 2 1
  let last := leAt c.payload 3 1
  let data := (fitTo 64 c.payload).drop 4
  if i = 0 then takePart d { station := c.src, length := len, lastPart := last, next := 1, bytes := data, start := d.tim.raw }
  else match d.svc.reasm.find? (fun r => decide (r.station = c.src)) with
  | some r =>
    if i = r.next ∧ len = r.length ∧ last = r.lastPart then takePart d { r with next := r.next + 1, bytes := r.bytes ++ data }
    else dropPartial d c.src
  | none => d

/-- A broadcast NSP_REQ is executed only if it is a single-part RECOVERY_PING (R376). -/
def nspBroadcast (d : Device) (c : RCell) : Device :=
  let len := leAt c.payload 0 2
  if leAt c.payload 2 1 = 0 ∧ leAt c.payload 3 1 = 0 ∧ leAt c.payload 5 1 = 0x15 then
    let d := { d with svc := { d.svc with nspSeen := tabSet (0 : BitVec 16) d.svc.nspSeen c.src.toNat c.seq } }
    nspFrame d c.src (((fitTo 64 c.payload).drop 4).take len)
  else d

end Sys2Proof.Machine
end

