-- ==== Sys2Proof/Machine/CellOps.lean ====
section
/-! DEFINITION. The shared operations on ring cells: requests that complete, role-epoch returns, delivery and its drop queues, served
requests, egress (09_ring.md R225 to R244, 10_concourse.md R271). -/

namespace Sys2Proof.Machine

/-! ### This station's own requests (R241, R244, R290, R292) -/

/-- A read of the partner for a role has completed (R290): the first asks for TAG_ROLE next, the second answers (log 26). -/
def formDone (d : Device) (status : Nat) (data : List Word) : Device :=
  match status, data with
  | 0, [stat] => match readPartner d .formRead 4 [stat] with
    | (some _, d) => d
    | (none, d) => formAlone d
  | 0, [stat, role] => if evaluating d then formAnswer d stat role else splitAnswer d stat role
  | _, _ => formAlone d

/-- A ring check has completed (R292): OK answers it; NO_TARGET, NO_ROUTE and TIMEOUT fail it. -/
def checkDone (d : Device) (seq : BitVec 16) (status : Nat) : Device :=
  match d.pair.check with
  | some (q, _) =>
    if q ≠ seq then d
    else if status = 0 then checkAnswered d
    else if status = 6 ∨ status = 7 ∨ status = 8 then checkFailed d
    else d
  | none => d

/-- A request of this station's own completes with a status and data, and whoever sent it goes on (R241, R244). -/
def requestDone (d : Device) (r : OutReq) (status : Nat) (data : List Word) : Device :=
  let d := finishReq d r.seq status data
  let d := match r.why with
    | .nspRead => nspPartDone d status data
    | .nspWrite => nspPartDone d status data
    | .ringCheck => checkDone d r.seq status
    | .formRead => formDone d status data
    | .other => d
  checkKick (nspKick d)

/-- The outstanding request of a seq. -/
def reqOf (d : Device) (seq : BitVec 16) : Option OutReq := d.ring.reqs.find? (fun r => decide (r.seq = seq))

/-- A request of a seq, if it is still outstanding, fails with a status. -/
def requestFails (d : Device) (seq : BitVec 16) (status : Nat) : Device :=
  match reqOf d seq with
  | some r => requestDone d r status []
  | none => d

/-- The part index of a read response (R240). -/
def partIndex (c : RCell) : Nat := c.epoch.toNat / 16 % 4

/-- A part of a read response kept by its index (R240): words 16j to 16j + 15 of the read. -/
def withPart (r : OutReq) (c : RCell) : OutReq :=
  let j := partIndex c
  { r with parts := r.parts.filter (fun x => decide (x.1 ≠ j))
      ++ [(j, (wordsOf (fitTo 64 c.payload)).take (leAt r.cell.payload 4 1 + 1 - 16 * j))] }

/-- The words of part j of a read, none while it has not arrived. -/
def partAt (r : OutReq) (j : Nat) : Option (List Word) := (r.parts.find? (fun x => decide (x.1 = j))).map (·.2)

/-- The words of a read whose parts up to the last index have all arrived, in order (R240). -/
def gathered (r : OutReq) (last : Nat) : Option (List Word) :=
  if (List.range (last + 1)).all (fun j => (partAt r j).isSome)
  then some (r.got ++ (List.range (last + 1)).flatMap (fun j => (partAt r j).getD [])) else none

/-- A read response (R240, R244): it completes the request once every part has arrived; until then the request stays outstanding. -/
def readAnswered (d : Device) (r : OutReq) (c : RCell) : Device :=
  let status := c.epoch.toNat % 16
  if status ≠ 0 ∧ status ≠ 1 then requestDone d r status []
  else
    let r' := withPart r c
    match gathered r' (c.epoch.toNat / 64) with
    | some ws => requestDone d r' status ws
    | none => { d with ring := { d.ring with reqs := d.ring.reqs.map (fun x => if x.seq = r.seq then r' else x) } }

/-- A response to this station (R219, R244): the request that its seq_echo names completes; without one it is discarded. -/
def responseTaken (d : Device) (c : RCell) : Device :=
  match reqOf d c.seqEcho with
  | none => d
  | some r =>
    if c.ctype ≠ respType r.cell.ctype then d
    else if c.ctype = 2 then readAnswered d r c
    else if c.ctype = 7 then requestDone d r (c.epoch.toNat % 16) (wordsOf (c.payload.take 12))
    else requestDone d r (c.epoch.toNat % 16) []

/-! ### Role-epoch returns (R239) -/

/-- A request fails after its retry: ROLE_CHANGED, or role_refused_final of a posted cell (R239). -/
def roleFails (d : Device) (c : RCell) : Device :=
  if nonPosted c.ctype then requestFails d c.seq 5
  else { d with ring := { d.ring with err := setBit d.ring.err 2 } }

/-- A retried cell leaves for a station (R235, R239). -/
def resend (d : Device) (dst : BitVec 10) (c : RCell) : Device :=
  match routeTo d dst with
  | some s => queueOut d qHouse s c
  | none => if nonPosted c.ctype then requestFails d c.seq 7 else d

/-- A retried pair cell leaves for the holder (R239). -/
def resendPair (d : Device) (c : RCell) : Device :=
  let off := if c.ctype = 6 then 0 else reqOffset c
  resend d (pairHolder d (c.dest.toNat % 512) off) c

/-- The pair that a returned pair cell was for: the request's own record, or the pair that the refusing station is a member of (log
43). -/
def pairNumberOf (d : Device) (c : RCell) : BitVec 10 :=
  match reqOf d c.seq with
  | some r => r.cell.dest
  | none => match d.ring.pairs.find? (fun e => decide (e.2.active = c.src) || decide (e.2.shadow = c.src)) with
    | some e => BitVec.ofNat 10 e.1
    | none => 0

/-- The cell that a returned one becomes for its one retry (R239): the original type, the new epoch, retried. -/
def retryCell (d : Device) (c : RCell) : RCell :=
  { c with
    ctype := c.ctype - 0x30, retried := true, src := d.ring.station, hop := 0, wrapOdd := false
    dest := if c.pair then pairNumberOf d c else c.src }

/-- A returned cell reaches its source (R239): resent once, a pair cell when RNG_PAIRp holds the new epoch. -/
def roleReturn (d : Device) (c : RCell) : Device :=
  let r := retryCell d c
  if nonPosted r.ctype && (reqOf d c.seq).isNone then d
  else if c.retried then roleFails d r
  else if !c.pair then resend d c.src r
  else
    let e := pairOf d (r.dest.toNat % 512)
    if e.valid && decide (e.epoch = c.epoch) then resendPair d r
    else { d with ring := { d.ring with retry := d.ring.retry ++ [(r, c.epoch, d.tim.raw)] } }

/-- RNG_PAIRp holds the epoch a waiting retry was returned with (R239). -/
def retryReady (d : Device) (x : RCell × BitVec 8 × Raw) : Bool :=
  let e := pairOf d (x.1.dest.toNat % 512)
  e.valid && decide (e.epoch = x.2.1)

/-- The retries leave whose epoch RNG_PAIRp now holds, brought by ROUTE_UPDATE or TOPO (R238, R239, R302). -/
def retryKick (d : Device) : Device :=
  let go := d.ring.retry.filter (retryReady d)
  let d := { d with ring := { d.ring with retry := d.ring.retry.filter (fun x => !retryReady d x) } }
  go.foldl (fun d x => resendPair d x.1) d

/-- The wait ends without the update when 2 ms have passed (R239). -/
def retryExpires (d : Device) (seq : BitVec 16) : Device :=
  match d.ring.retry.find? (fun x => decide (x.1.seq = seq) && decide (2 * msTicks ≤ (d.tim.raw - x.2.2).toNat)) with
  | none => d
  | some x =>
    roleFails { d with ring := { d.ring with retry := d.ring.retry.filter (fun y => decide (y.1.seq ≠ seq)) } } x.1

/-! ### Broadcasts (R226, R249, R302, R376) -/

/-- The broadcast is later than the last one delivered of its source (R226). -/
def freshCast (d : Device) (c : RCell) : Bool :=
  match tabGet (none : Option (BitVec 16)) d.ring.seen c.src.toNat with
  | some q => laterThan c.seq q
  | none => true

/-- The broadcast is kept as the last one delivered of its source (R226). -/
def noteCast (d : Device) (c : RCell) : Device :=
  { d with ring := { d.ring with seen := tabSet none d.ring.seen c.src.toNat (some c.seq) } }

/-- An OWNER_RESET that has passed the checks of arrival (R225, R226, R229, R249, R380): always delivered; the locks of its source
break, and its update session ends. -/
def ownerResetArrived (d : Device) (at_ : Side) (c : RCell) : Device :=
  if ownCell d c then
    let strip := stripsOwn d c
    let d := tokenCheck d c
    if strip then d else forward d at_ c
  else
    let d := ownerGone (noteCast d c) c.src
    let d := match d.svc.session with
      | some x => if x.owner = c.src.setWidth 11 then endSession d else d
      | none => d
    forward d at_ c

/-- What a ROUTE_UPDATE tells (R302): RNG_PAIRp and RNG_MAPs, and the retries that waited for it. -/
def learnRoute (d : Device) (c : RCell) : Device :=
  let p := leAt c.payload 2 2
  if 512 ≤ p then d
  else
    retryKick (routeWrite d p (BitVec.ofNat 10 (leAt c.payload 4 2)) (BitVec.ofNat 10 (leAt c.payload 6 2))
      (BitVec.ofNat 8 (leAt c.payload 8 1)) (BitVec.ofNat 8 (leAt c.payload 9 1)) (BitVec.ofNat 8 (leAt c.payload 10 1))
      (BitVec.ofNat 64 (leAt c.payload 16 8)))

/-- A broadcast of another source that is delivered once and goes on (R225, R226). -/
def castArrived (d : Device) (at_ : Side) (c : RCell) (take : Device → Device) : Device :=
  if ownCell d c then (if stripsOwn d c then d else forward d at_ c)
  else forward (if freshCast d c then take (noteCast d c) else d) at_ c

/-! ### Delivery (R222, R225, R239, R243) -/

/-- The drop queue of a side. -/
def dropOf (d : Device) (s : Side) : List RCell :=
  match s with
  | .east => d.ring.dropEast
  | .west => d.ring.dropWest

/-- The cells of a drop queue with the EVENT cells at its front served: an EVENT asks nothing of an EL6420 (R243; log 44). -/
def behindEvents (cs : List RCell) : List RCell := cs.dropWhile (fun c => decide (c.ctype = 8))

/-- The drop queue of a side written; EVENT cells that stand first leave at once. -/
def setDrop (d : Device) (s : Side) (cs : List RCell) : Device :=
  let cs := behindEvents cs
  match s with
  | .east => { d with ring := { d.ring with dropEast := cs } }
  | .west => { d with ring := { d.ring with dropWest := cs } }

/-- The index of a part of a tunnelled frame (R375). -/
def partNo (c : RCell) : Nat := leAt c.payload 2 1

/-- A part of a tunnelled frame of a station (R375). -/
def partOf (n : BitVec 10) (c : RCell) : Bool := decide (c.ctype = 13) && decide (c.src = n)

/-- The cells of a drop queue without the parts of the frame that a station has begun last (R375). -/
def lessFrame (cs : List RCell) (n : BitVec 10) : List RCell :=
  (cs.foldr (fun c x => if !x.2 && partOf n c then (x.1, decide (partNo c = 0)) else (c :: x.1, x.2)) ([], false)).1

/-- A part of a tunnelled frame is refused (R375): the parts of its frame that came before it are discarded, those that wait to be served among
them, and BUSY is answered; what comes after it is discarded as it arrives. -/
def refusePart (d : Device) (s : Side) (c : RCell) : Device :=
  let before := ((dropOf d s).filter (partOf c.src)).getLast?
  let d := match before with
    | none => dropPartial d c.src
    | some x => if partNo c ≠ 0 ∧ partNo x + 1 = partNo c then setDrop (dropPartial d c.src) s (lessFrame (dropOf d s) c.src) else d
  let d := { d with svc := { d.svc with nspRefused := d.svc.nspRefused.filter (fun n => decide (n ≠ c.src)) ++ [c.src] } }
  sendResponse d (qDrop s) c 14 3 []

/-- The part belongs to a frame of which one was refused (R375). -/
def afterRefused (d : Device) (c : RCell) : Bool := decide (c.ctype = 13) && decide (partNo c ≠ 0) && d.svc.nspRefused.contains c.src

/-- A part 0 begins a frame of which none is refused yet (R375). -/
def beginsFrame (d : Device) (c : RCell) : Device :=
  if decide (c.ctype = 13) && decide (partNo c = 0) then
    { d with svc := { d.svc with nspRefused := d.svc.nspRefused.filter (fun n => decide (n ≠ c.src)) } }
  else d

/-- A drop queue is full (R243): BUSY to a non-posted request, whose tunnelled frame is discarded (R375); a posted one is counted. -/
def dropFull (d : Device) (s : Side) (c : RCell) : Device :=
  if c.ctype = 13 then refusePart d s c
  else if nonPosted c.ctype then sendResponse d (qDrop s) c (respType c.ctype) 3 []
  else onPort d (sidePort s) (fun p => { p with dropFull := cntUp p.dropFull })

/-- A request, EVENT or NSP cell for this station (R239, R243): checked for its epoch, then kept in the drop queue of its side. -/
def intoDrop (d : Device) (s : Side) (c : RCell) : Device :=
  if c.epoch ≠ epochNow d c then returnCell d (qDrop s) c
  else if afterRefused d c then d
  else if 64 ≤ (dropOf d s).length then dropFull d s c
  else setDrop (beginsFrame d c) s (dropOf d s ++ [c])

/-- A returned type (R222). -/
def returnedType (t : BitVec 6) : Bool := [0x31, 0x33, 0x35, 0x36, 0x38, 0x3D].contains t.toNat

/-- A cell addressed to this station (R222, R225). DESIGN CHOICE: a type of the mirror lane alone, met on a ring lane, is taken as one that is
not carried there: discarded, with bad_type (log 152). -/
def deliver (d : Device) (s : Side) (c : RCell) : Device :=
  if epochChecked c.ctype then intoDrop d s c
  else if c.ctype = 2 ∨ c.ctype = 4 ∨ c.ctype = 7 then responseTaken d c
  else if c.ctype = 14 then { d with svc := { d.svc with tunnel := some c } }
  else if returnedType c.ctype then roleReturn d c
  else if c.ctype = 9 ∨ c.ctype = 10 ∨ c.ctype = 11 then d
  else { d with ring := { d.ring with err := setBit d.ring.err 0 } }

/-- A cell with this station's own number comes back and is stripped (R225): a non-posted request has found no target; a posted one
sets no_target. -/
def cameBack (d : Device) (c : RCell) : Device :=
  if nonPosted c.ctype then requestFails d c.seq 6
  else if c.ctype = 5 ∨ c.ctype = 8 then { d with ring := { d.ring with err := setBit d.ring.err 3 } }
  else d

/-- This station is a member of the pair a pair cell is addressed to (R238). -/
def memberOf (d : Device) (c : RCell) : Bool :=
  (decide (d.pair.role = .active) || decide (d.pair.role = .shadow)) && decide (c.dest.toNat = d.pair.number.toNat)

/-- The join states in which the station delivers what is addressed to it (R229, R230). -/
def delivers (d : Device) : Bool := decide (d.ring.join = .joining) || decide (d.ring.join = .joined)

/-- This station takes a unicast cell (R225, R238, R239): by its number, or as the holder of a pair address; a returned cell goes by the
number of its source. -/
def takes (d : Device) (c : RCell) : Bool :=
  delivers d
    && (if c.pair && decide (c.ctype.toNat < 0x30) then memberOf d c && holdsAddress d c else decide (c.dest = d.ring.station))

/-- A cell that has passed the checks of arrival (R225); span-local cells and beacons are taken by commands of their own. -/
def cellArrived (d : Device) (s : Side) (c : RCell) : Device :=
  if d.ring.join = .off ∨ spanLocal c.ctype = true ∨ c.ctype = 16 then d
  else if c.ctype = 9 then ownerResetArrived d s c
  else if c.ctype = 10 then retryKick (topoArrived d s c)
  else if c.bcast && decide (c.ctype = 11) then castArrived d s c (fun d => learnRoute d c)
  else if c.bcast && decide (c.ctype = 13) then castArrived d s c (fun d => nspBroadcast d c)
  else if ownCell d c then (if stripsOwn d c then cameBack d c else forward d s c)
  else if !c.bcast && takes d c then deliver d s c
  else forward d s c

/-! ### Served requests (R240 to R243, R247, R289) -/

/-- The request at the front of a side's drop queue, if it is of a type, is served and leaves the queue, once it has what it takes of the
concourse (R243, R256, R257). -/
def serveNext (d : Device) (s : Side) (t : BitVec 6) (needs : Device → RCell → List ResNo) (serve : Device → RCell → Device) : Device :=
  match dropOf d s with
  | c :: r => if c.ctype = t then withAll d (qDrop s, .whole) .drop (needs d c) (fun d => serve (setDrop d s r) c) else d
  | [] => d

/-- The offset field of a request (R240). -/
def offsetField (c : RCell) : Nat := leAt c.payload 0 4

/-- The word count of a request (R240). -/
def wordCount (c : RCell) : Nat := leAt c.payload 4 1 + 1

/-- A request's offset and count are in form (R237, R241). -/
def inForm (c : RCell) (most : Nat) : Bool :=
  decide (offsetField c % 4 = 0) && decide (offsetField c < 2 ^ 30) && decide (wordCount c ≤ most)

/-- The RD_RESP cells of a read (R240). -/
def readCells (d : Device) (s : Side) (c : RCell) (status : Nat) (ws : List Word) : Device :=
  let n := (ws.length + 15) / 16
  (List.range n).foldl (fun d j =>
    sendResponse d (qDrop s) c 2 (BitVec.ofNat 8 (status + 16 * j + 64 * (n - 1))) (bytesOf ((ws.drop (16 * j)).take 16))) d

/-- What a request out of form leaves: FORMAT executes nothing, but an access it names that is not aligned sets bad_access (R4, R241,
R242). -/
def malformed (d : Device) (c : RCell) : Device :=
  if offsetField c % 4 ≠ 0 then badAccess d (.ring c.src) (offsetField c) else d

/-- What a read takes of the concourse (R242, R256). -/
def readTakes (d : Device) (c : RCell) : List ResNo := if inForm c 64 then readManyNeeds d (offsetField c) (wordCount c) else []

/-- A served RD_REQ (R240 to R242). -/
def serveRead (d : Device) (s : Side) (c : RCell) : Device :=
  if !inForm c 64 then sendResponse (malformed d c) (qDrop s) c 2 2 []
  else
    let (ws, d) := readMany d (.ring c.src) (offsetField c) (wordCount c)
    readCells d s c (if ws.all (fun w => w.2) then 0 else 1) (ws.map (fun w => w.1))

/-- The data words of a write request (R240). -/
def writeData (c : RCell) : List Word := (wordsOf ((fitTo 64 c.payload).drop 8)).take (wordCount c)

/-- What a write takes of the concourse (R242, R256). -/
def writeTakes (d : Device) (c : RCell) : List ResNo := if inForm c 14 then writeManyNeeds d (offsetField c) (writeData c) else []

/-- A served WR_REQ (R240 to R242). -/
def serveWrite (d : Device) (s : Side) (c : RCell) : Device :=
  if !inForm c 14 then sendResponse (malformed d c) (qDrop s) c 4 2 []
  else
    let (ok, d) := writeMany d (.ring c.src) (offsetField c) (writeData c)
    if ok then sendResponse d (qDrop s) c 4 0 (c.payload.take 5) else sendResponse d (qDrop s) c 4 1 []

/-- A served WR_POSTED (R240 to R242): nothing answers it. -/
def servePosted (d : Device) (c : RCell) : Device :=
  if inForm c 14 then (writeMany d (.ring c.src) (offsetField c) (writeData c)).2 else malformed d c

/-- The payload of a LOCK_RESP (R240). -/
def lockBody (d : Device) (i : LockNo) (code : Nat) : List Byte :=
  let l := lockAt d i.val
  leBytes 1 code ++ leBytes 1 i.val ++ leBytes 2 l.owner.toNat ++ leBytes 2 (leaseLeft d l) ++ leBytes 1 l.broken.toNat
    ++ leBytes 1 0 ++ leBytes 2 l.cnt.count.toNat

/-- A LOCK_REQ out of form (R241, R247). -/
def lockOutOfForm (c : RCell) : Bool :=
  let op := leAt c.payload 0 1
  decide (op = 0) || decide (5 < op) || ((decide (op = 1) || decide (op = 3)) && decide (leAt c.payload 2 2 % 65536 = 0))

/-- What a lock request takes of the concourse (R256). -/
def lockTakes (d : Device) (c : RCell) : List ResNo := if lockOutOfForm c then [] else lockNeeds d

/-- A served LOCK_REQ (R241, R247): the shadow's table is a copy, a request that names it is UNMAPPED (R289). -/
def serveLock (d : Device) (s : Side) (c : RCell) : Device :=
  let op := leAt c.payload 0 1
  let i : LockNo := Fin.ofNat 256 (leAt c.payload 1 1)
  let lease := BitVec.ofNat 16 (leAt c.payload 2 2)
  if locksCopied d then sendResponse d (qDrop s) c 7 1 []
  else if lockOutOfForm c then sendResponse d (qDrop s) c 7 2 []
  else
    let (code, d) := lockOp d i op lease c.src
    sendResponse d (qDrop s) c 7 0 (lockBody d i code)

/-! ### Egress (R202, R204, R205, R209, R229, R232, R271) -/

/-- The egress buffer of a side's add port. -/
def bufOf (d : Device) (s : Side) : Option RCell :=
  match s with
  | .east => d.ring.bufEast
  | .west => d.ring.bufWest

/-- The egress buffer of a side's add port frees. -/
def bufFree (d : Device) (s : Side) : Device :=
  match s with
  | .east => { d with ring := { d.ring with bufEast := none } }
  | .west => { d with ring := { d.ring with bufWest := none } }

/-- What is written into a cell as it leaves: a beacon's origin and generation (R205), a turnaround (R209), a join token (R229). -/
def egressBody (d : Device) (c : RCell) : List Byte :=
  let p := fitTo 64 c.payload
  if c.ctype = 16 then
    putBytes (putBytes p 5 (leBytes 1 d.tim.gen.toNat)) 8 (leBytes 10 (ftNow d d.tim.raw).toNat)
  else if c.ctype = 18 then putBytes p 8 (leInt 8 ((d.tim.raw.toNat : Int) * 65536 - leSigned p 8 8))
  else if c.ctype = 9 ∨ c.ctype = 10 then putBytes p 4 (leBytes 4 d.tim.raw.toNat)
  else p

/-- The slot of the engine whose cell has left, or was dropped, frees (R339). -/
def slotFree (d : Device) (c : RCell) : Device :=
  { d with eng := d.eng.map (fun e => match e.egress with
    | some x => if c.ctype = 5 ∧ x.seq = c.seq then { e with egress := none } else e
    | none => e) }

/-- The response to a SLOT_SELECT with the restart flag has left, as the last for its station: the restart is due 10 ms on (R383; log 161). -/
def restartLeaves (d : Device) (c : RCell) : Device :=
  let more := fun (x : ReqNo × RCell) => decide (x.2.ctype = 14) && decide (x.2.dest = c.dest)
  if decide (c.ctype = 14) && decide (d.svc.restartDue = .afterResponse c.dest) && !d.ring.outEast.any more && !d.ring.outWest.any more
  then { d with svc := { d.svc with restartDue := .due (rawAdd d.tim.raw (10 * msTicks)) } } else d

/-- What the station keeps of a cell that leaves: the request it will match (R209), the join token (R229), the engine's slot that
frees (R339). -/
def egressKeep (d : Device) (s : Side) (c : RCell) : Device :=
  let d := if c.ctype = 17 then setPdReq d (sidePort s) (some (c.seq, d.tim.raw)) else d
  let d := if c.ctype = 9 ∨ c.ctype = 10 then
      { d with ring := { d.ring with tokens := (d.ring.tokens ++ [BitVec.ofNat 32 d.tim.raw.toNat]).reverse.take 2 |>.reverse } }
    else d
  restartLeaves (slotFree d c) c

/-- A beacon that is wrapped counts it (R205, R206). -/
def wrapBody (c : RCell) : List Byte :=
  if c.ctype = 16 then putBytes c.payload 3 (leBytes 1 (min 255 (leAt c.payload 3 1 + 1))) else c.payload

/-- A cell leaves by a side's lane, or, where the side is wrapped, by the other, but for a broadcast that is no beacon (R232). -/
def leaveBy (d : Device) (s : Side) (c : RCell) : Device :=
  if !wrapped d s || spanLocal c.ctype then putLane d s c
  else if c.bcast && decide (c.ctype ≠ 16) then d
  else putLane d (otherSide s) { c with payload := wrapBody c, wrapOdd := !c.wrapOdd, hop := 0 }

/-- A cell that leaves at a coincidence edge alone: BEACON, PDELAY_REQ, PDELAY_RESP (R202, R209). -/
def edgeBound (t : BitVec 6) : Bool := [16, 17, 18].contains t.toNat

/-- The cell in a side's egress buffer leaves (R271); one that is bound to a coincidence edge waits for the next (R202), and one that the
join state forbids as its turn to leave comes is dropped (R229, R230; log 159). -/
def egress (d : Device) (s : Side) : Device :=
  match bufOf d s with
  | none => d
  | some c =>
    if !mayLeave d s c.ctype then restartLeaves (slotFree (bufFree d s) c) c else
    if edgeBound c.ctype && !atEdge d then d else
    let c := { c with payload := egressBody d c }
    leaveBy (egressKeep (bufFree d s) s c) s c

end Sys2Proof.Machine
end

