-- ==== Sys2Proof/Machine/CellFamily.lean ====
section
/-! DEFINITION. The meanings of the ring-cell commands (09_ring.md). -/

namespace Sys2Proof.Machine

/-- CELL_ARRIVAL (R220, R224, R225). -/
def execCellArrival (at_ : Side) (c : RCell) (s : State) : Host.Outcome State Fault Refusal :=
  latAct s (fun d => match arrive d (sidePort at_) c with
    | (none, d) => d
    | (some c, d) => cellArrived d at_ c)

/-- CELL_EGRESS (R271). -/
def execCellEgress (at_ : Side) (s : State) : Host.Outcome State Fault Refusal := latAct s (fun d => egress d at_)

/-- OWNER_RESET (R229, R249, R380). -/
def execOwnerReset (at_ : Side) (c : RCell) (s : State) : Host.Outcome State Fault Refusal :=
  latAct s (fun d => match arrive d (sidePort at_) c with
    | (none, d) => d
    | (some c, d) => if d.ring.join = .off then d else ownerResetArrived d at_ c)

/-- TOPO (R234, R229, R230, R238, R239). -/
def execTopo (at_ : Side) (c : RCell) (s : State) : Host.Outcome State Fault Refusal :=
  latAct s (fun d => match arrive d (sidePort at_) c with
    | (none, d) => d
    | (some c, d) => retryKick (topoArrived d at_ c))

/-- ROUTE_UPDATE (R226, R302). -/
def execRouteUpdate (at_ : Side) (c : RCell) (s : State) : Host.Outcome State Fault Refusal :=
  latAct s (fun d => match arrive d (sidePort at_) c with
    | (none, d) => d
    | (some c, d) => if d.ring.join = .off then d else castArrived d at_ c (fun d => learnRoute d c))

/-- ROLE_EPOCH_RETURN (R239); nothing is delivered by station number before JOINING or in COLLISION (R229, R230). -/
def execRoleEpochReturn (c : RCell) (s : State) : Host.Outcome State Fault Refusal :=
  latAct s (fun d => if laneRuns d && delivers d && returnedType c.ctype then roleReturn d c else d)

/-- RETRY_WAIT_EXPIRY (R239): 2 ms without the ROUTE_UPDATE. -/
def execRetryWaitExpiry (seq : BitVec 16) (s : State) : Host.Outcome State Fault Refusal := latAct s (fun d => retryExpires d seq)

/-- RD_REQ (R242): the request at the front of the drop queue is served. -/
def execRdReq (at_ : Side) (s : State) : Host.Outcome State Fault Refusal :=
  latAct s (fun d => serveNext d at_ 1 readTakes (fun d c => serveRead d at_ c))

/-- WR_REQ (R242). -/
def execWrReq (at_ : Side) (s : State) : Host.Outcome State Fault Refusal :=
  latAct s (fun d => serveNext d at_ 3 writeTakes (fun d c => serveWrite d at_ c))

/-- WR_POSTED (R242). -/
def execWrPosted (at_ : Side) (s : State) : Host.Outcome State Fault Refusal :=
  latAct s (fun d => serveNext d at_ 5 writeTakes servePosted)

/-- LOCK_REQ (R247). -/
def execLockReq (at_ : Side) (s : State) : Host.Outcome State Fault Refusal :=
  latAct s (fun d => serveNext d at_ 6 lockTakes (fun d c => serveLock d at_ c))

/-- RD_RESP (R240, R244); nothing is delivered by station number before JOINING or in COLLISION (R229, R230). -/
def execRdResp (c : RCell) (s : State) : Host.Outcome State Fault Refusal :=
  latAct s (fun d => if laneRuns d && delivers d && decide (c.ctype = 2) then responseTaken d c else d)

/-- WR_ACK (R240, R244); nothing is delivered by station number before JOINING or in COLLISION (R229, R230). -/
def execWrAck (c : RCell) (s : State) : Host.Outcome State Fault Refusal :=
  latAct s (fun d => if laneRuns d && delivers d && decide (c.ctype = 4) then responseTaken d c else d)

/-- LOCK_RESP (R240, R244); nothing is delivered by station number before JOINING or in COLLISION (R229, R230). -/
def execLockResp (c : RCell) (s : State) : Host.Outcome State Fault Refusal :=
  latAct s (fun d => if laneRuns d && delivers d && decide (c.ctype = 7) then responseTaken d c else d)

/-- REQUEST_TIMEOUT (R244): no response within tmo_ms. -/
def execRequestTimeout (seq : BitVec 16) (s : State) : Host.Outcome State Fault Refusal :=
  latAct s (fun d => match reqOf d seq with
    | some r =>
      if reached d.tim.raw r.due then
        let d := { d with ring := { d.ring with retry := d.ring.retry.filter (fun x => decide (x.1.seq ≠ seq)) } }
        requestDone d r 8 []
      else d
    | none => d)

/-- NSP_REQ (R375): the part at the front of the drop queue is taken. -/
def execNspReq (at_ : Side) (s : State) : Host.Outcome State Fault Refusal :=
  latAct s (fun d => serveNext d at_ 13 (fun _ _ => []) nspPart)

end Sys2Proof.Machine
end

