-- ==== Sys2Proof/Machine/MirrorOps.lean ====
section
/-! DEFINITION. The mirror receive unit: what a mirror cell that has arrived does, and the cells that wait for a bank or the lock table
(11_pair.md, 10_concourse.md R255, R256). -/

namespace Sys2Proof.Machine

/-- A window word of a channel this member does not hold (R284, R461): with a word of the launch time, the other one too stands as the
partner holds it. -/
def takeLqWin (d : Device) (n : ChanNo) (i : LqIdx) (w : Nat) (v : Word) : Device :=
  if mirrorTakes d && shadowFor d n then
    let d := match (if w = 2 ∨ w = 3 then tabGet none (chan d n).lq.abroad i.val else none) with
      | some l => setAbroad (lqSetWord (lqSetWord d n i 2 (l.extractLsb' 0 32)) n i 3 (l.extractLsb' 32 32)) n i none
      | none => d
    lqSetWord d n i w v
  else d

/-- A state, commit or completion of a launch-queue entry; a commit translates the launch time (R284, R286, R461). -/
def takeLqState (d : Device) (n : ChanNo) (i : LqIdx) (st : LqSt) (cancel late committed : Bool) : Device :=
  if mirrorTakes d && shadowFor d n then
    let d := if committed then translateLaunch d n i else d
    let e : LqEnt := if st = .free then {} else { st := st, cancel := cancel, late := late }
    lqHold d n i e
  else d

/-- The copy of a channel not held, unless it runs its own fault confinement (R284, R287). The copy's counters are the holder's, whose
journal records their events: a limit they cross writes no entry and sets no bit here (R95; log 109). -/
def takeFc (d : Device) (n : ChanNo) (tec : BitVec 9) (rec : BitVec 8) (st : FcSt) : Device :=
  if !mirrorTakes d then d
  else if holdsChan d n then d
  else if d.pair.fcLocal.getLsbD n.val then d
  else
    let d := fcSet d n tec rec st
    if st = .busOff then d else onFe d n (fun f => { f with recovering := false, recovCnt := 0 })

/-- Phase, number, ends and the sleep order of a ballot (R171, R284). -/
def takeBallot (d : Device) (n : ChanNo) (phase : BalPh) (number : BitVec 8) (windowEnd descentEnd : Raw) (sleepOrder : Bool) : Device :=
  if mirrorTakes d && shadowFor d n then
    let d := onSlp d n (fun x => { x with phase := phase, number := number, windowEnd := windowEnd, descentEnd := descentEnd })
    if sleepOrder then lineRequest d n .sleep else d
  else d

/-- An entry of the hold log (R284). -/
def takeHoldlog (d : Device) (n : ChanNo) (i : Nat) (e : HoldEnt) : Device :=
  if mirrorTakes d && shadowFor d n then onSlp d n (fun x => { x with log := x.log.set (Fin.ofNat 16 i) e }) else d

/-- The shadow takes what the active alone is the source of. -/
def fromActive (d : Device) : Bool := mirrorTakes d && decide (d.pair.role = .shadow)

/-- The registers of a context of the active (R284, R340). -/
def takeContext (d : Device) (k : EngNo) (c : CtxNo) (regs : Vector Word 16) : Device :=
  if fromActive d then onEng d k (fun e => { e with ctx := e.ctx.set c { e.ctx[c] with g := regs } }) else d

/-- The epochs and the castled map (R284); in a resync the shadow takes up the channels that stand castled to it (R278). -/
def takeEpoch (d : Device) (pairEpoch stEpoch : BitVec 8) (castled : BitVec 64) : Device :=
  if fromActive d then
    let d := { d with pair := { d.pair with
      epoch := pairEpoch, castled := castled, peer := d.pair.peer.map (fun m => { m with stEpoch := stEpoch }) } }
    if d.pair.st = .resync then forChans d (chansOf (castled &&& driveChans d &&& ~~~ d.pair.held)) takeChan else d
  else d

/-- The partner's items have all arrived, of the resync that runs here (R283). -/
def takeResync (d : Device) (no : BitVec 8) : Device :=
  if decide (d.pair.st = .resync) && mirrorTakes d && decide (no = d.pair.resyncNo)
  then stepIn { d with pair := { d.pair with resyncGot := true } } else d

/-- What a mirror cell does (R282, R284). -/
def mirApply (d : Device) (m : MirMsg) : Device :=
  match m with
  | .heartbeat h => heartbeatArrives d h
  | .lqWin n i w v => takeLqWin d n i w v
  | .lqState n i st cancel late committed => takeLqState d n i st cancel late committed
  | .fc n tec rec st => takeFc d n tec rec st
  | .jpos n op t => if mirrorTakes d && shadowFor d n then journalMirrored d n op t else d
  | .time rate offset gen boundary => if fromActive d then timeMirrored d rate offset gen boundary else d
  | .ballot n phase number windowEnd descentEnd sleepOrder => takeBallot d n phase number windowEnd descentEnd sleepOrder
  | .holdlog n i e => takeHoldlog d n i e
  | .context k c regs => takeContext d k c regs
  | .lock i owner held leaseMs leaseEnd broken => if fromActive d then lockMirrored d i owner held leaseMs leaseEnd broken else d
  | .epoch pairEpoch stEpoch castled => takeEpoch d pairEpoch stEpoch castled
  | .token channels why => if decide (d.pair.role = .active) || decide (d.pair.role = .shadow) then tokenArrives d channels why else d
  | .resync no => takeResync d no

/-! ### The resources of MRX (R255, R256) -/

/-- MRX as requester (R255). -/
def mrxReq : Requester := (74, .whole)

/-- The bank of a copied launch-queue entry. -/
def copyNeeds (d : Device) (n : ChanNo) (i : LqIdx) : List ResNo :=
  if mirrorTakes d && shadowFor d n then lqBanks d n i else []

/-- A mirrored position is found by the stamps of the journal's entries (R288; log 135). -/
def placeNeeds (d : Device) (n : ChanNo) (op : JposOp) : List ResNo :=
  let finds := match op with
    | .pop => true
    | .flush => true
    | .setMark => true
    | _ => false
  if finds && mirrorTakes d && shadowFor d n then ((chan d n).jn.base.map bankOf).toList else []

/-- What a mirror cell takes of the concourse (R256, R270). -/
def mirNeeds (d : Device) (m : MirMsg) : List ResNo :=
  match m with
  | .lqWin n i _ _ => copyNeeds d n i
  | .lqState n i st _ _ committed =>
    if committed || (decide (st ≠ .free) && decide ((lqEnt d n i).st = .free)) then copyNeeds d n i else []
  | .jpos n op _ => placeNeeds d n op
  | .lock _ _ _ _ _ _ => if fromActive d then [lockTable] else []
  | _ => []

/-- A mirror cell joins those that wait. -/
def mrxWait (d : Device) (m : MirMsg) : Device := { d with pair := { d.pair with mrxQ := d.pair.mrxQ ++ [m] } }

/-- A mirror cell is taken in the order of arrival, once MRX has what it takes (R256, R257, R283, R284). -/
def mirDo (d : Device) (m : MirMsg) : Device :=
  let rs := mirNeeds d m
  if d.pair.mrxQ ≠ [] then mrxWait d m
  else if canAll d mrxReq rs then mirApply (useAll d mrxReq .mirror rs) m
  else awaitAll (mrxWait d m) mrxReq .mirror rs

/-- The mirror cells that waited go on. -/
def mrxGo (d : Device) : Device :=
  d.pair.mrxQ.foldl mirDo (noWait { d with pair := { d.pair with mrxQ := [] } } mrxReq .mirror)

/-- A mirror cell arrives (R11, R29, R216, R282, R283): MRX runs while the lane has block lock; a HEARTBEAT counts from its arrival (R281). -/
def mirArrive (d : Device) (q : BitVec 16) (m : MirMsg) : Device :=
  if !d.ring.mirror.blockLock then d
  else
    let d := mirSeen d q
    mirDo (if isBeat m then { d with pair := { d.pair with hbOk := true } } else d) m

end Sys2Proof.Machine
end

