-- ==== Sys2Proof/Machine/ConcourseFamily.lean ====
section
/-! DEFINITION. The meanings of the concourse's commands (10_concourse.md). -/

namespace Sys2Proof.Machine

/-- The service requests that wait go on, unless one still waits for the ring (R374). -/
def nspGo (d : Device) : Device :=
  if d.svc.nspQueue = [] then d else nspDrain { noWait d houseReq .nsp with svc := { d.svc with nspQueue := [] } } d.svc.nspQueue

/-- The items of a resync that waited for their banks go on. -/
def resyncGo (d : Device) : Device := if d.con.waits.any (fun y => decide (y.work = .resync)) then queueResync d else d

/-- The ballot frames that waited for the bank of their entry go on (R157, R158). -/
def ballotsGo (d : Device) : Device :=
  if !d.con.waits.any (fun y => decide (y.work = .ballot)) then d
  else forChans d (List.finRange 64) (fun d n => match (chan d n).slp.due with
    | some x => ballotFrame d n x
    | none => d)

/-- All work that waits for resources is tried again: what now has all it takes goes on (R256, R257, R259). -/
def conGo (d : Device) : Device := loaderGo (ballotsGo (resyncGo (nspGo (mrxGo (accessKick d)))))

/-- CONCOURSE_REQUEST (R257, R264, R267, R462). -/
def execConcourseRequest (q : Fin 78) (part : ConPart) (r : ResNo) (s : State) : Host.Outcome State Fault Refusal :=
  latAct s (fun d => request d (q, part) r)

/-- CONCOURSE_DECISION (R259, R261, R263, R265, R271): work granted its resources takes place within the data phase. -/
def execConcourseDecision (r : ResNo) (s : State) : Host.Outcome State Fault Refusal := latAct s (fun d => conGo (decision d r))

/-- CONCOURSE_RELEASE (R258, R259): the owner's work is done before it, the next owner's after. -/
def execConcourseRelease (r : ResNo) (s : State) : Host.Outcome State Fault Refusal := latAct s (fun d => conGo (release (conGo d) r))

/-- CON_FREEZE_WRITE (R265, R266). -/
def execConFreezeWrite (mask : BitVec 20) (s : State) : Host.Outcome State Fault Refusal :=
  latAct s (fun d => freezeWrite d mask)

end Sys2Proof.Machine
end

