-- ==== Sys2Proof/Machine/EngineFamily.lean ====
section
/-! DEFINITION. The meanings of the engine commands and of the 47 instructions of a context (12_micro_engines.md,
13_engine_isa.md). An instruction command is the turn of context c of engine k for the instruction with these operands: it
acts when the engine runs, the rotation gives c the turn and this instruction's word stands at its pc (log 32). -/

namespace Sys2Proof.Machine

/-! ### The engine -/

/-- ENGINE_START (R314). -/
def execEngineStart (k : EngNo) (s : State) : Host.Outcome State Fault Refusal := latAct s (fun d => startEngine d k)

/-- ENGINE_STOP (R313). -/
def execEngineStop (k : EngNo) (s : State) : Host.Outcome State Fault Refusal := latAct s (fun d => stopEngine d k)

/-- ENGINE_STOPPED (R311, R313). -/
def execEngineStopped (k : EngNo) (cells : List PinStop) (s : State) : Host.Outcome State Fault Refusal :=
  latAct s (fun d => engineStopped d k cells)

/-- STALL_END (R308). -/
def execStallEnd (k : EngNo) (c : CtxNo) (s : State) : Host.Outcome State Fault Refusal := latAct s (fun d => stallOver d k c)

/-- A turn whose word is an encoding of R329. -/
def illegalTurn (d : Device) (k : EngNo) (c : CtxNo) : Device :=
  let w := progAt d.eng[k] (ctxOf d k c).pc
  if legalWord w then d else turn d k c w id

/-- ILLEGAL (R329). -/
def execIllegal (k : EngNo) (c : CtxNo) (s : State) : Host.Outcome State Fault Refusal := latAct s (fun d => illegalTurn d k c)

/-! ### Arithmetic and logic (R330, R332) -/

/-- An instruction of two registers into rd. -/
def regOp (d : Device) (k : EngNo) (c : CtxNo) (op : Nat) (rd ra rb : GReg) (f : Word → Word → Word) : Device :=
  turn d k c (encR op rd ra rb 0 0) (fun d => setAndRetire d k c rd (f (greg d k c ra) (greg d k c rb)))

/-- An instruction of a register and an immediate into rd. -/
def immOp (d : Device) (k : EngNo) (c : CtxNo) (op : Nat) (rd ra : GReg) (imm : Nat) (f : Word → Word) : Device :=
  turn d k c (encI op rd ra imm) (fun d => setAndRetire d k c rd (f (greg d k c ra)))

/-- ADD (R332). -/
def execAdd (k : EngNo) (c : CtxNo) (rd ra rb : GReg) (s : State) : Host.Outcome State Fault Refusal :=
  latAct s (fun d => regOp d k c 0x01 rd ra rb (fun a b => a + b))

/-- SUB (R332). -/
def execSub (k : EngNo) (c : CtxNo) (rd ra rb : GReg) (s : State) : Host.Outcome State Fault Refusal :=
  latAct s (fun d => regOp d k c 0x02 rd ra rb (fun a b => a - b))

/-- AND (R332). -/
def execAnd (k : EngNo) (c : CtxNo) (rd ra rb : GReg) (s : State) : Host.Outcome State Fault Refusal :=
  latAct s (fun d => regOp d k c 0x03 rd ra rb (fun a b => a &&& b))

/-- OR (R332). -/
def execOr (k : EngNo) (c : CtxNo) (rd ra rb : GReg) (s : State) : Host.Outcome State Fault Refusal :=
  latAct s (fun d => regOp d k c 0x04 rd ra rb (fun a b => a ||| b))

/-- XOR (R332). -/
def execXor (k : EngNo) (c : CtxNo) (rd ra rb : GReg) (s : State) : Host.Outcome State Fault Refusal :=
  latAct s (fun d => regOp d k c 0x05 rd ra rb (fun a b => a ^^^ b))

/-- SHL (R332). -/
def execShl (k : EngNo) (c : CtxNo) (rd ra rb : GReg) (s : State) : Host.Outcome State Fault Refusal :=
  latAct s (fun d => regOp d k c 0x06 rd ra rb (fun a b => a <<< shiftOf b))

/-- SHR (R332). -/
def execShr (k : EngNo) (c : CtxNo) (rd ra rb : GReg) (s : State) : Host.Outcome State Fault Refusal :=
  latAct s (fun d => regOp d k c 0x07 rd ra rb (fun a b => a >>> shiftOf b))

/-- SRA (R332). -/
def execSra (k : EngNo) (c : CtxNo) (rd ra rb : GReg) (s : State) : Host.Outcome State Fault Refusal :=
  latAct s (fun d => regOp d k c 0x08 rd ra rb (fun a b => a.sshiftRight (shiftOf b)))

/-- ADDI (R330, R332). -/
def execAddi (k : EngNo) (c : CtxNo) (rd ra : GReg) (imm : BitVec 18) (s : State) : Host.Outcome State Fault Refusal :=
  latAct s (fun d => immOp d k c 0x09 rd ra imm.toNat (fun a => a + sext18 imm))

/-- ANDI (R330, R332). -/
def execAndi (k : EngNo) (c : CtxNo) (rd ra : GReg) (imm : BitVec 18) (s : State) : Host.Outcome State Fault Refusal :=
  latAct s (fun d => immOp d k c 0x0a rd ra imm.toNat (fun a => a &&& zext18 imm))

/-- ORI (R330, R332). -/
def execOri (k : EngNo) (c : CtxNo) (rd ra : GReg) (imm : BitVec 18) (s : State) : Host.Outcome State Fault Refusal :=
  latAct s (fun d => immOp d k c 0x0b rd ra imm.toNat (fun a => a ||| zext18 imm))

/-- XORI (R330, R332). -/
def execXori (k : EngNo) (c : CtxNo) (rd ra : GReg) (imm : BitVec 18) (s : State) : Host.Outcome State Fault Refusal :=
  latAct s (fun d => immOp d k c 0x0c rd ra imm.toNat (fun a => a ^^^ zext18 imm))

/-- SHLI (R330, R332). -/
def execShli (k : EngNo) (c : CtxNo) (rd ra : GReg) (sh : Fin 32) (s : State) : Host.Outcome State Fault Refusal :=
  latAct s (fun d => immOp d k c 0x0d rd ra sh.val (fun a => a <<< sh.val))

/-- SHRI (R330, R332). -/
def execShri (k : EngNo) (c : CtxNo) (rd ra : GReg) (sh : Fin 32) (s : State) : Host.Outcome State Fault Refusal :=
  latAct s (fun d => immOp d k c 0x0e rd ra sh.val (fun a => a >>> sh.val))

/-- SRAI (R330, R332). -/
def execSrai (k : EngNo) (c : CtxNo) (rd ra : GReg) (sh : Fin 32) (s : State) : Host.Outcome State Fault Refusal :=
  latAct s (fun d => immOp d k c 0x0f rd ra sh.val (fun a => a.sshiftRight sh.val))

/-- LDI (R332). -/
def execLdi (k : EngNo) (c : CtxNo) (rd : GReg) (imm : BitVec 16) (s : State) : Host.Outcome State Fault Refusal :=
  latAct s (fun d => turn d k c (encU 0x10 rd imm) (fun d => setAndRetire d k c rd (imm.setWidth 32)))

/-- LDH (R332): the low half of rd stays. -/
def execLdh (k : EngNo) (c : CtxNo) (rd : GReg) (imm : BitVec 16) (s : State) : Host.Outcome State Fault Refusal :=
  latAct s (fun d => turn d k c (encU 0x11 rd imm) (fun d =>
    setAndRetire d k c rd (imm ++ (greg d k c rd).setWidth 16)))

/-- EXT (R332): pos stands in imm[9:5], len - 1 in imm[4:0]. -/
def execExt (k : EngNo) (c : CtxNo) (rd ra : GReg) (pos lenM1 : Fin 32) (s : State) : Host.Outcome State Fault Refusal :=
  latAct s (fun d => immOp d k c 0x12 rd ra (pos.val * 32 + lenM1.val) (fun a => extract a pos.val (lenM1.val + 1)))

/-! ### Branches and jumps (R331, R332) -/

/-- A branch on two registers. -/
def regBranch (d : Device) (k : EngNo) (c : CtxNo) (op : Nat) (ra rb : GReg) (target : BitVec 10) (f : Word → Word → Bool) : Device :=
  turn d k c (encB op ra rb 0 target) (fun d => branch d k c (f (greg d k c ra) (greg d k c rb)) target)

/-- A branch on a register and imm8, zero-extended. -/
def immBranch (d : Device) (k : EngNo) (c : CtxNo) (op : Nat) (ra : GReg) (imm : BitVec 8) (target : BitVec 10)
    (f : Word → Word → Bool) : Device :=
  turn d k c (encB op ra 0 imm target) (fun d => branch d k c (f (greg d k c ra) (imm.setWidth 32)) target)

/-- BEQ (R332). -/
def execBeq (k : EngNo) (c : CtxNo) (ra rb : GReg) (target : BitVec 10) (s : State) : Host.Outcome State Fault Refusal :=
  latAct s (fun d => regBranch d k c 0x14 ra rb target (fun a b => decide (a = b)))

/-- BNE (R332). -/
def execBne (k : EngNo) (c : CtxNo) (ra rb : GReg) (target : BitVec 10) (s : State) : Host.Outcome State Fault Refusal :=
  latAct s (fun d => regBranch d k c 0x15 ra rb target (fun a b => decide (a ≠ b)))

/-- BLT (R332). -/
def execBlt (k : EngNo) (c : CtxNo) (ra rb : GReg) (target : BitVec 10) (s : State) : Host.Outcome State Fault Refusal :=
  latAct s (fun d => regBranch d k c 0x16 ra rb target (fun a b => a.slt b))

/-- BGE (R332). -/
def execBge (k : EngNo) (c : CtxNo) (ra rb : GReg) (target : BitVec 10) (s : State) : Host.Outcome State Fault Refusal :=
  latAct s (fun d => regBranch d k c 0x17 ra rb target (fun a b => !a.slt b))

/-- BLTU (R332). -/
def execBltu (k : EngNo) (c : CtxNo) (ra rb : GReg) (target : BitVec 10) (s : State) : Host.Outcome State Fault Refusal :=
  latAct s (fun d => regBranch d k c 0x18 ra rb target (fun a b => a.ult b))

/-- BGEU (R332). -/
def execBgeu (k : EngNo) (c : CtxNo) (ra rb : GReg) (target : BitVec 10) (s : State) : Host.Outcome State Fault Refusal :=
  latAct s (fun d => regBranch d k c 0x19 ra rb target (fun a b => !a.ult b))

/-- BEQI (R330, R332). -/
def execBeqi (k : EngNo) (c : CtxNo) (ra : GReg) (imm : BitVec 8) (target : BitVec 10) (s : State) : Host.Outcome State Fault Refusal :=
  latAct s (fun d => immBranch d k c 0x1a ra imm target (fun a b => decide (a = b)))

/-- BNEI (R330, R332). -/
def execBnei (k : EngNo) (c : CtxNo) (ra : GReg) (imm : BitVec 8) (target : BitVec 10) (s : State) : Host.Outcome State Fault Refusal :=
  latAct s (fun d => immBranch d k c 0x1b ra imm target (fun a b => decide (a ≠ b)))

/-- JMP (R332). -/
def execJmp (k : EngNo) (c : CtxNo) (target : BitVec 10) (s : State) : Host.Outcome State Fault Refusal :=
  latAct s (fun d => turn d k c (encB 0x1C 0 0 0 target) (fun d => retireTo d k c target))

/-- CALL (R332): g15 takes pc + 1. -/
def execCall (k : EngNo) (c : CtxNo) (target : BitVec 10) (s : State) : Host.Outcome State Fault Refusal :=
  latAct s (fun d => turn d k c (encB 0x1D 0 0 0 target) (fun d =>
    retireTo (setGreg d k c 15 ((ctxOf d k c).pc.setWidth 32 + 1)) k c target))

/-- JR (R332). -/
def execJr (k : EngNo) (c : CtxNo) (ra : GReg) (s : State) : Host.Outcome State Fault Refusal :=
  latAct s (fun d => turn d k c (encB 0x1E ra 0 0 0) (fun d => retireTo d k c ((greg d k c ra).setWidth 10)))

/-! ### Scratch and SRAM (R332, R333) -/

/-- SLD (R332). -/
def execSld (k : EngNo) (c : CtxNo) (rd ra : GReg) (imm : BitVec 18) (s : State) : Host.Outcome State Fault Refusal :=
  latAct s (fun d => turn d k c (encI 0x20 rd ra imm.toNat) (fun d =>
    let (w, d) := scrRead d k (scrAddr (greg d k c ra + sext18 imm))
    setAndRetire d k c rd w))

/-- SST (R332). -/
def execSst (k : EngNo) (c : CtxNo) (rd ra : GReg) (imm : BitVec 18) (s : State) : Host.Outcome State Fault Refusal :=
  latAct s (fun d => turn d k c (encI 0x21 rd ra imm.toNat) (fun d =>
    retire (scrWrite d k (scrAddr (greg d k c ra + sext18 imm)) (greg d k c rd)) k c))

/-- An SRAM instruction is outside binding NONE (R309; log 33). -/
def withMemory (d : Device) (k : EngNo) (c : CtxNo) (f : Device → Device) : Device :=
  if bindOf (ctxOf d k c) = 0 then ctxFault d k c 0xA else f d

/-- MLD (R332, R333). -/
def execMld (k : EngNo) (c : CtxNo) (rd ra : GReg) (imm : BitVec 18) (s : State) : Host.Outcome State Fault Refusal :=
  latAct s (fun d => turn d k c (encI 0x22 rd ra imm.toNat) (fun d => withMemory d k c (fun d =>
    viaPort d k c (fun ws => setAndRetire d k c rd (ws.headD 0)))))

/-- MST (R332, R333). -/
def execMst (k : EngNo) (c : CtxNo) (rd ra : GReg) (imm : BitVec 18) (s : State) : Host.Outcome State Fault Refusal :=
  latAct s (fun d => turn d k c (encI 0x23 rd ra imm.toNat) (fun d => withMemory d k c (fun d =>
    viaPort d k c (fun _ => retire d k c))))

/-! ### Pin queues (R309, R321, R332) -/

/-- PPUSH (R332): a full TX queue stalls it. -/
def execPpush (k : EngNo) (c : CtxNo) (ra : GReg) (cell : Fin 16) (s : State) : Host.Outcome State Fault Refusal :=
  latAct s (fun d => turn d k c (encI 0x28 0 ra cell.val) (fun d => withCell d k c cell.val (fun p =>
    if (pinAt d p).txq.length < pinCap (pinAt d p) then
      retire (pushCell d p (greg d k c ra)) k c
    else stall d k c 3 .pending)))

/-- PPOP (R332): an empty RX queue stalls it. -/
def execPpop (k : EngNo) (c : CtxNo) (rd : GReg) (cell : Fin 16) (s : State) : Host.Outcome State Fault Refusal :=
  latAct s (fun d => turn d k c (encI 0x29 rd 0 cell.val) (fun d => withCell d k c cell.val (fun p =>
    match popCell d p with
    | some (w, d) => setAndRetire d k c rd w
    | none => stall d k c 2 .pending)))

/-- PPOPN (R332): rv tells whether a word was there. -/
def execPpopn (k : EngNo) (c : CtxNo) (rd rv : GReg) (cell : Fin 16) (s : State) : Host.Outcome State Fault Refusal :=
  latAct s (fun d => turn d k c (encI 0x2A rd rv cell.val) (fun d => withCell d k c cell.val (fun p =>
    match popCell d p with
    | some (w, d) => setAndRetire (setGreg d k c rv 1) k c rd w
    | none => setAndRetire (setGreg d k c rv 0) k c rd 0)))

/-! ### Journal and launch queue (R334, R335) -/

/-- JRD (R334): with no visible word it returns at once with 0 in both. -/
def execJrd (k : EngNo) (c : CtxNo) (rd rt : GReg) (s : State) : Host.Outcome State Fault Refusal :=
  latAct s (fun d => turn d k c (encI 0x2C rd rt 0) (fun d => withChan d k c 22 (fun n =>
    if (ctxOf d k c).wait = .none ∧ jWords (chan d n).jn = 0 then setAndRetire (setGreg d k c rd 0) k c rt 0
    else viaPort d k c (fun ws => setAndRetire (setGreg d k c rd (ws.headD 0)) k c rt (ws.getD 1 0)))))

/-- JPK (R332). -/
def execJpk (k : EngNo) (c : CtxNo) (rd : GReg) (s : State) : Host.Outcome State Fault Refusal :=
  latAct s (fun d => turn d k c (encI 0x2D rd 0 0) (fun d => withChan d k c 22 (fun n =>
    setAndRetire d k c rd (BitVec.ofNat 32 (jPkts d n)))))

/-- A wait instruction: it completes when its stall has ended, and does not stall when there is nothing to wait for. -/
def waitTurn (d : Device) (k : EngNo) (c : CtxNo) (ready : Bool) (w : CtxWait) : Device :=
  match (ctxOf d k c).wait with
  | .done _ => retire d k c
  | _ => if ready then retire d k c else stall d k c 4 w

/-- The raw value imm18 microseconds from now (R334, R338). -/
def afterMicros (d : Device) (imm : BitVec 18) : Raw := rawAdd d.tim.raw (imm.toNat * 160)

/-- JWAIT (R334). -/
def execJwait (k : EngNo) (c : CtxNo) (imm : BitVec 18) (s : State) : Host.Outcome State Fault Refusal :=
  latAct s (fun d => turn d k c (encI 0x2E 0 0 imm.toNat) (fun d => withChan d k c 22 (fun n =>
    waitTurn d k c (decide (jPkts d n ≠ 0) || decide (imm = 0)) (.until (afterMicros d imm)))))

/-- LQW (R335). -/
def execLqw (k : EngNo) (c : CtxNo) (rd ra : GReg) (w : Fin 24) (s : State) : Host.Outcome State Fault Refusal :=
  latAct s (fun d => turn d k c (encI 0x30 rd ra w.val) (fun d => withChan d k c 23 (fun _ =>
    viaPort d k c (fun _ => retire d k c))))

/-- TXQ (R335): through the port, then to the commit edge, then the result code to rd. -/
def execTxq (k : EngNo) (c : CtxNo) (rd ra : GReg) (s : State) : Host.Outcome State Fault Refusal :=
  latAct s (fun d => turn d k c (encI 0x31 rd ra 0) (fun d => withChan d k c 23 (fun _ =>
    viaPort d k c (fun ws => match ws with
      | [] => stall d k c 4 .pending
      | code :: _ => setAndRetire d k c rd code))))

/-- TXC (R332, R117, R118). -/
def execTxc (k : EngNo) (c : CtxNo) (ra : GReg) (s : State) : Host.Outcome State Fault Refusal :=
  latAct s (fun d => turn d k c (encI 0x32 0 ra 0) (fun d => withChan d k c 23 (fun _ =>
    viaPort d k c (fun _ => retire d k c))))

/-! ### Time (R336 to R338) -/

/-- A pair of registers written, low half first. -/
def setPair (d : Device) (k : EngNo) (c : CtxNo) (rd : GReg) (v : BitVec 64) : Device :=
  setGreg (setGreg d k c rd (v.extractLsb' 0 32)) k c (pairOdd rd) (v.extractLsb' 32 32)

/-- TRD (R336). -/
def execTrd (k : EngNo) (c : CtxNo) (rd : GReg) (s : State) : Host.Outcome State Fault Refusal :=
  latAct s (fun d => turn d k c (encI 0x34 rd 0 0) (fun d => retire (setPair d k c rd d.tim.raw) k c))

/-- TCONV (R199, R308, R337): it stalls with cause 0x5 while the engine's converter is busy with another context's conversion; its own is
over within its turn (log 34). -/
def execTconv (k : EngNo) (c : CtxNo) (rd ra rb rc : GReg) (s : State) : Host.Outcome State Fault Refusal :=
  latAct s (fun d => turn d k c (encR 0x35 rd ra rb rc 0) (fun d =>
    if d.eng[k].conv.any (fun x => decide (x ≠ c)) then stall d k c 5 .pending
    else
    let r : Raw := greg d k c (pairOdd ra) ++ greg d k c ra
    match convertGen d ((greg d k c rb).setWidth 4) r with
    | some t => setAndRetire (setPair d k c rd (nsOf t)) k c rc 0
    | none =>
      let d := { d with tim := { d.tim with evt := setBit d.tim.evt 3 } }
      setAndRetire (setPair d k c rd 0) k c rc 1))

/-- WAITA (R338). -/
def execWaita (k : EngNo) (c : CtxNo) (ra : GReg) (imm : BitVec 18) (s : State) : Host.Outcome State Fault Refusal :=
  latAct s (fun d => turn d k c (encI 0x36 0 ra imm.toNat) (fun d =>
    let t := greg d k c ra + sext18 imm
    waitTurn d k c (reached32 d t) (.until32 t)))

/-- WAITD (R338). -/
def execWaitd (k : EngNo) (c : CtxNo) (imm : BitVec 18) (s : State) : Host.Outcome State Fault Refusal :=
  latAct s (fun d => turn d k c (encI 0x37 0 0 imm.toNat) (fun d =>
    waitTurn d k c (decide (imm = 0)) (.until (afterMicros d imm))))

/-! ### Ring and mirror (R339, R340) -/

/-- The operands of an RPOST are in range (R339). -/
def postable (rb rc : Word) : Bool :=
  decide (fld rb 0 2 = 0) && decide (fld rb 30 2 = 0) && decide (fld rc 11 21 = 0) && !(rc.getLsbD 10 && rc.getLsbD 9)

/-- One WR_POSTED cell of n words leaves through the engine's egress slot; one that has no route is lost (R235, R339). -/
def postCell (d : Device) (k : EngNo) (rb rc : Word) (ws : List Word) : Device :=
  let pairSpace := rc.getLsbD 10
  match addressed d pairSpace (fld rc 0 10) (fld rb 0 30) with
  | none => d
  | some (st, ep, dest) =>
    match routeTo d st with
    | none => d
    | some side =>
      let body := leBytes 4 (fld rb 0 30) ++ leBytes 1 (ws.length - 1) ++ List.replicate 3 0 ++ ws.flatMap (fun w => leBytes 4 w.toNat)
      let (cell, d) := newCell d 5 dest ep body
      let cell := { cell with pair := pairSpace }
      onEng (queueOut d qHouse side cell) k (fun e => { e with egress := some cell })

/-- RPOST (R339): an unsent cell in the egress slot stalls it. -/
def execRpost (k : EngNo) (c : CtxNo) (ra rb rc : GReg) (nM1 : BitVec 4) (s : State) : Host.Outcome State Fault Refusal :=
  latAct s (fun d => turn d k c (encR 0x38 0 ra rb rc nM1.toNat) (fun d =>
    if !postable (greg d k c rb) (greg d k c rc) then ctxFault d k c 9
    else if d.eng[k].egress ≠ none then stall d k c 6 .pending
    else
      let (ws, d) := scrMany d k (greg d k c ra).toNat (nM1.toNat + 1)
      retire (postCell d k (greg d k c rb) (greg d k c rc) ws) k c))

/-- MSYNC has effect in the active member of a formed pair in step (R340). -/
def syncs (d : Device) : Bool := decide (d.pair.role = .active) && decide (d.pair.st = .inStep)

/-- MSYNC (R340): a context without mirror faults; a CONTEXT cell not yet sent stalls it. -/
def execMsync (k : EngNo) (c : CtxNo) (s : State) : Host.Outcome State Fault Refusal :=
  latAct s (fun d => turn d k c (encI 0x39 0 0 0) (fun d =>
    if !(ctxOf d k c).cfg.getLsbD 24 then ctxFault d k c 9
    else if !syncs d then retire d k c
    else if d.eng[k].ctxCell then stall d k c 1 .pending
    else
      let d := mirrorQueue d (qEng k) (.context k c (ctxOf d k c).g)
      retire (onEng d k (fun e => { e with ctxCell := true })) k c))

/-- HALT (R332): pc stays. -/
def execHalt (k : EngNo) (c : CtxNo) (s : State) : Host.Outcome State Fault Refusal :=
  latAct s (fun d => turn d k c (encI 0x3A 0 0 0) (fun d => onCtx d k c (fun x => { x with st := .halted, cause := 0 })))

end Sys2Proof.Machine
end

