-- ==== Sys2Proof/Machine/ImageFamily.lean ====
section
/-! DEFINITION. The meanings of the structure-loader commands (14_structure_image.md). -/

namespace Sys2Proof.Machine

/-- IMAGE_VERIFY (R358, R359). -/
def execImageVerify (s : State) : Host.Outcome State Fault Refusal := latAct s (fun d => loadCommand d false)

/-- IMAGE_APPLY (R360). -/
def execImageApply (s : State) : Host.Outcome State Fault Refusal := latAct s (fun d => loadCommand d true)

/-- DISTRICT_HOLD (R363). -/
def execDistrictHold (src : Src) (d : BitVec 4) (s : State) : Host.Outcome State Fault Refusal :=
  latAct s (fun x => holdCommand x src d.toNat)

/-- DISTRICT_RELEASE (R363). -/
def execDistrictRelease (src : Src) (d : BitVec 4) (s : State) : Host.Outcome State Fault Refusal :=
  latAct s (fun x => releaseCommand x src d.toNat)

/-- DRAIN_COMPLETE (R360). -/
def execDrainComplete (s : State) : Host.Outcome State Fault Refusal := latAct s drainOp

/-- HOLD_TIMEOUT (R360). -/
def execHoldTimeout (s : State) : Host.Outcome State Fault Refusal := latAct s holdTimeout

end Sys2Proof.Machine
end

