-- ==== Sys2Proof/Machine/PairFamily.lean ====
section
/-! DEFINITION. The meanings of the pair unit's commands and of what arrives over the mirror lane (11_pair.md). -/

namespace Sys2Proof.Machine

/-- HEARTBEAT_SEND (R281): every 16 000 T cycles a declared member with the mirror lane UP queues its HEARTBEAT, which leaves at a
coincidence edge. -/
def execHeartbeatSend (s : State) : Host.Outcome State Fault Refusal :=
  latAct s (fun d =>
    if paired d && decide (d.ring.mirror.st = .up) && passed d d.pair.beatAt 16000 then
      mirrorQueue { d with pair := { d.pair with beatAt := some d.tim.raw } } qHouse (.heartbeat (heartbeatNow d))
    else d)

/-- HEARTBEAT (R281, R283, R290, R294). -/
def execHeartbeat (q : BitVec 16) (m : HbMsg) (s : State) : Host.Outcome State Fault Refusal :=
  latAct s (fun d => mirArrive d q (.heartbeat m))

/-- HEARTBEAT_LOSS (R281, R292, R293): once for each loss. -/
def execHeartbeatLoss (s : State) : Host.Outcome State Fault Refusal := latAct s heartbeatLost

/-- CHECK_TIMEOUT (R292, R296): the outstanding ring check goes unanswered within check_us. -/
def execCheckTimeout (s : State) : Host.Outcome State Fault Refusal :=
  latAct s (fun d => match d.pair.check with
    | some (q, _) => nspKick (checkFailed { d with ring := { d.ring with reqs := d.ring.reqs.filter (fun r => decide (r.seq ≠ q)) } })
    | none => d)

/-- SPLIT_CHECK_TIMER (R290, R292, R294): the shadow repeats its ring check, an active in SPLIT_SUSPECT without its mirror lane
reads its partner, a member in the isolation of R290 evaluates again. DEDUCED: a shadow left ISOLATED by R292 repeats its check here too, as
soon as a ring port is UP (log 153). -/
def execSplitCheckTimer (s : State) : Host.Outcome State Fault Refusal :=
  latAct s (fun d =>
    if evaluating d then formStep d
    else if d.pair.role = .shadow ∧ (d.pair.st = .splitSuspect ∨ d.pair.st = .isolated) then
      if d.pair.check = none ∧ d.pair.checkDue = false ∧ ringUp d = true then ringCheck d else d
    else if d.pair.role = .active ∧ d.pair.st = .splitSuspect ∧ d.ring.mirror.st ≠ .up
        ∧ !d.ring.reqs.any (fun r => decide (r.why = .formRead)) then
      (readPartner d .formRead pairStatOffset []).2
    else d)

/-- LQ_WIN (R284, R461): a window word of a channel this member does not hold. -/
def execLqWin (q : BitVec 16) (n : ChanNo) (i : LqIdx) (w : Fin 24) (value : Word) (s : State) : Host.Outcome State Fault Refusal :=
  latAct s (fun d => mirArrive d q (.lqWin n i w.val value))

/-- LQ_STATE (R284, R286, R461): a state, commit or completion; a commit translates the launch time. -/
def execLqState (q : BitVec 16) (n : ChanNo) (i : LqIdx) (st : LqSt) (cancel late committed : Bool) (s : State) :
    Host.Outcome State Fault Refusal :=
  latAct s (fun d => mirArrive d q (.lqState n i st cancel late committed))

/-- FC (R284, R287): the copy of a channel not held, unless it runs its own fault confinement. The copy's counters are the holder's, whose
journal records their events: a limit they cross writes no entry and sets no bit here (R95; log 109). -/
def execFc (q : BitVec 16) (n : ChanNo) (tec : BitVec 9) (rec : BitVec 8) (st : FcSt) (s : State) : Host.Outcome State Fault Refusal :=
  latAct s (fun d => mirArrive d q (.fc n tec rec st))

/-- JPOS (R284, R288). -/
def execJpos (q : BitVec 16) (n : ChanNo) (op : JposOp) (time : BitVec 80) (s : State) : Host.Outcome State Fault Refusal :=
  latAct s (fun d => mirArrive d q (.jpos n op time))

/-- TIME (R213, R284). -/
def execTime (q : BitVec 16) (rate : BitVec 48) (offset : BitVec 80) (gen : BitVec 4) (boundary : Raw) (s : State) :
    Host.Outcome State Fault Refusal :=
  latAct s (fun d => mirArrive d q (.time rate offset gen boundary))

/-- BALLOT (R171, R284): phase, number, ends and the sleep order. -/
def execBallot (q : BitVec 16) (n : ChanNo) (phase : BalPh) (number : BitVec 8) (windowEnd descentEnd : Raw) (sleepOrder : Bool) (s : State) :
    Host.Outcome State Fault Refusal :=
  latAct s (fun d => mirArrive d q (.ballot n phase number windowEnd descentEnd sleepOrder))

/-- HOLDLOG (R284). -/
def execHoldlog (q : BitVec 16) (n : ChanNo) (i : Fin 16) (e : HoldEnt) (s : State) : Host.Outcome State Fault Refusal :=
  latAct s (fun d => mirArrive d q (.holdlog n i.val e))

/-- CONTEXT (R284, R340): the registers of a context of the active. -/
def execContext (q : BitVec 16) (k : EngNo) (c : CtxNo) (regs : Vector Word 16) (s : State) : Host.Outcome State Fault Refusal :=
  latAct s (fun d => mirArrive d q (.context k c regs))

/-- LOCK (R284, R289). -/
def execLock (q : BitVec 16) (i : LockNo) (owner : BitVec 10) (held : Bool) (leaseMs : BitVec 16) (leaseEnd : Raw) (broken : Bool) (s : State) :
    Host.Outcome State Fault Refusal :=
  latAct s (fun d => mirArrive d q (.lock i owner held leaseMs leaseEnd broken))

/-- EPOCH (R284): the epochs and the castled map; in a resync the shadow takes up the channels that stand castled to it (R278). -/
def execEpoch (q : BitVec 16) (pairEpoch stEpoch : BitVec 8) (castled : BitVec 64) (s : State) : Host.Outcome State Fault Refusal :=
  latAct s (fun d => mirArrive d q (.epoch pairEpoch stEpoch castled))

/-- TOKEN (R280, R298, R299, R300). -/
def execToken (q : BitVec 16) (channels : BitVec 64) (why : TokenWhy) (s : State) : Host.Outcome State Fault Refusal :=
  latAct s (fun d => mirArrive d q (.token channels why))

/-- RESYNC (R283): the partner's items of the resync of this number have all arrived. -/
def execResync (q : ResyncMsg) (s : State) : Host.Outcome State Fault Refusal :=
  latAct s (fun d => mirArrive d q.seq (.resync q.no))

/-- FORCE_RESYNC (R283). -/
def execForceResync (s : State) : Host.Outcome State Fault Refusal := latAct s startResync

/-- CASTLE (R291, R298). -/
def execCastle (s : State) : Host.Outcome State Fault Refusal := latAct s castleOp

/-- CHANNEL_CASTLE (R300). -/
def execChannelCastle (n : ChanNo) (s : State) : Host.Outcome State Fault Refusal := latAct s (fun d => channelCastleOp d n)

/-- TOKEN_RELEASE (R280, R298, R300). -/
def execTokenRelease (n : ChanNo) (s : State) : Host.Outcome State Fault Refusal := latAct s (fun d => tokenRelease d n)

/-- MIRROR_UP_TIMEOUT (R290): the member goes on by the ring. -/
def execMirrorUpTimeout (s : State) : Host.Outcome State Fault Refusal :=
  latAct s (fun d =>
    if d.pair.role = .forming ∧ d.ring.mirror.st ≠ .up then formStep { d with pair := { d.pair with formRing := true } } else d)

/-- PARTNER_WAIT_TIMEOUT (R290): 1.5 s in JOINED without the partner in the map. -/
def execPartnerWaitTimeout (s : State) : Host.Outcome State Fault Refusal :=
  latAct s (fun d =>
    if d.pair.formRing ∧ d.ring.mirror.st ≠ .up ∧ d.ring.join = .joined ∧ routeTo d d.pair.partner = none then formAlone d else d)

/-- JOIN_WAIT_TIMEOUT (R290): ACTIVE with no channel held, fenced, ISOLATED; the evaluation goes on. -/
def execJoinWaitTimeout (s : State) : Host.Outcome State Fault Refusal :=
  latAct s (fun d =>
    if d.pair.role = .forming ∧ d.pair.formRing ∧ d.ring.mirror.st ≠ .up ∧ d.ring.join ≠ .joined then
      fence { d with pair := { d.pair with role := .active } }
    else d)

/-- MIRROR_CELL_ERROR (R283): a cell that fails its CRC or a gap in the mirror seq. -/
def execMirrorCellError (s : State) : Host.Outcome State Fault Refusal :=
  latAct s (fun d => if d.ring.mirror.blockLock then startResync d else d)

end Sys2Proof.Machine
end

