-- ==== Sys2Proof/Machine/PinFamily.lean ====
section
/-! DEFINITION. The meanings of the pin cell commands (12_micro_engines.md). -/

namespace Sys2Proof.Machine

/-- A cell completes a received word, given by its samples, the first in bit 0 (R317, R318, R320, R322; log 118): in RX_ASYNC it
then waits for the next edge. In bank B with VIO_B low every sample is 0 (R444). -/
def pinRxWord (d : Device) (p : PinNo) (w : Word) : Device :=
  let c := pinAt d p
  let v := arranged c (if pinDead d p then 0 else w)
  if !pinFinishes d p || absorbed d p then d
  else if pinMode c = 3 then onPin d p (fun c => rxPush { c with shifter := v, busy := false, bits := 0 } v)
  else if pinMode c = 4 ∧ c.busy = true then onPin d p (fun c => rxPush { c with shifter := v, busy := false, bits := 0 } v)
  else d

/-- PIN_RX_WORD (R320). -/
def execPinRxWord (p : PinNo) (w : Word) (s : State) : Host.Outcome State Fault Refusal := latAct s (fun d => pinRxWord d p w)

/-- An idle transmitting cell loads the word at its queue head (R320). -/
def pinTxLoad (d : Device) (p : PinNo) : Device :=
  let c := pinAt d p
  if pinRuns d p && !absorbed d p && decide (pinMode c = 2) && !c.busy then onPin d p txLoad else d

/-- PIN_TX_LOAD (R320). -/
def execPinTxLoad (p : PinNo) (s : State) : Host.Outcome State Fault Refusal := latAct s (fun d => pinTxLoad d p)

/-- A transmitted word ends (R320, R322): the next word follows without an idle bit, else the cell idles, and with cont set the
empty queue is an underrun. A stopping cell loads no further word (R313). -/
def pinTxWordEnd (d : Device) (p : PinNo) : Device :=
  let c := pinAt d p
  if pinFinishes d p && decide (pinMode c = 2) && c.busy then
    onPin d p (fun c =>
      let idle := { c with busy := false, bits := 0 }
      if c.txq = [] then (if pinCont c then { idle with evt := setBit c.evt 0 } else idle)
      else if pinRuns d p then txLoad c else idle)
  else d

/-- PIN_TX_WORD_END (R322). -/
def execPinTxWordEnd (p : PinNo) (s : State) : Host.Outcome State Fault Refusal := latAct s (fun d => pinTxWordEnd d p)

/-- PIN_EDGE (R319). -/
def execPinEdge (p : PinNo) (level : Bool) (s : State) : Host.Outcome State Fault Refusal := latAct s (fun d => pinEdge d p level)

/-- PIN_ASYNC_START (R318). -/
def execPinAsyncStart (p : PinNo) (level : Bool) (s : State) : Host.Outcome State Fault Refusal :=
  latAct s (fun d => pinAsyncStart d p level)

/-- PIN_HOST_PUSH (R323, R324). -/
def execPinHostPush (p : PinNo) (w : Word) (s : State) : Host.Outcome State Fault Refusal := latAct s (fun d => hostPush d p w)

/-- PIN_HOST_POP (R323, R324). -/
def execPinHostPop (p : PinNo) (s : State) : Host.Outcome State Fault Refusal :=
  latAct s (fun d => let (w, d) := hostPop d p; answerWord d w)

end Sys2Proof.Machine
end

