-- ==== Sys2Proof/Machine/PowerFamily.lean ====
section
/-! DEFINITION. The meanings of the power, start-up, standby and ledger commands (15_service_update.md, 16_power_start.md). -/

namespace Sys2Proof.Machine

/-- JOIN_COMPLETE (R229, R290, R400): 2 ms in JOINING without collision. -/
def execJoinComplete (s : State) : Host.Outcome State Fault Refusal := latAct s joinComplete

/-- TRIAL_TIMER_EXPIRY (R385, R397): the trial timer reaches 0 and the device resets. -/
def execTrialTimerExpiry (s : State) : Host.Outcome State Fault Refusal :=
  latAct s (fun d => match d.svc.trialEnd with
    | some e => if reached d.tim.raw e then deviceReset d 4 else d
    | none => d)

/-- RESTART_DELAY_EXPIRY (R383, R397): 10 ms after the response to a request with the restart flag. -/
def execRestartDelayExpiry (s : State) : Host.Outcome State Fault Refusal :=
  latAct s (fun d => match d.svc.restartDue with
    | .due t => if reached d.tim.raw t then deviceReset d 3 else d
    | _ => d)

/-- TAG_PERSIST (R409). -/
def execTagPersist (s : State) : Host.Outcome State Fault Refusal := latAct s ledgerBegin

/-- TAG_PERSIST_TIMER (R409): 2 s after the last write to the tag area. -/
def execTagPersistTimer (s : State) : Host.Outcome State Fault Refusal :=
  latAct s (fun d => if d.glb.tagPending ∧ d.svc.ledBusy = none then ledgerBegin d else d)

/-- LEDGER_WRITE_DONE (R388, R409). -/
def execLedgerWriteDone (s : State) : Host.Outcome State Fault Refusal := latAct s ledgerDone

/-- LATTICE_POR_ASSERT (R396): a monitored rail of the lattice die drops. -/
def execLatticePorAssert (s : State) : Host.Outcome State Fault Refusal := act s (fun d => deviceReset d 1)

/-- RST_N_ASSERT (R397, R444): RST_N held low for 1 µs, recognised on the VAON domain. -/
def execRstNAssert (s : State) : Host.Outcome State Fault Refusal := vaonAct s (fun d => deviceReset d 2)

/-- RESTART (R397, R418): the restart strobe of GLB_RST_CTRL. -/
def execRestart (s : State) : Host.Outcome State Fault Refusal := latAct s (fun d => deviceReset d 3)

/-- WATCHDOG_EXPIRY (R397): the housekeeper has not served its watchdog for 1 s. -/
def execWatchdogExpiry (s : State) : Host.Outcome State Fault Refusal := latAct s (fun d => deviceReset d 5)

/-- LATTICE_RESET_RELEASE (R384, R398, R400): the lattice die leaves its reset and runs start-up step 1; steps 2 to 4 take the T edges
that follow (bootStep; log 140). RECOVER_N is read at the release, and tick is the sentinel's tick count, against which the offline records are read (R185). -/
def execLatticeResetRelease (recoverLow : Bool) (tick : Nat) (s : State) : Host.Outcome State Fault Refusal :=
  vaonAct s (fun d => if d.glb.latUp then d else startUp d recoverLow tick)

/-- START_SERVICE (R402): start-up step 7. -/
def execStartService (s : State) : Host.Outcome State Fault Refusal :=
  latAct s (fun d => if serviceDue d then serviceStart d else d)

/-- STANDBY_REQUEST (R404). -/
def execStandbyRequest (s : State) : Host.Outcome State Fault Refusal := latAct s standbyRequest

/-- STANDBY_CANCEL (R406). -/
def execStandbyCancel (s : State) : Host.Outcome State Fault Refusal := latAct s standbyCancel

end Sys2Proof.Machine
end

