-- ==== Sys2Proof/Machine/RegisterFamily.lean ====
section
/-! DEFINITION. The meanings of the commands by which a host accesses this module's own window (00_scope.md R4 to R9,
17_registers_local.md R416, 18_registers_fabric.md R427, 05_launch_queues.md, 06_journals.md, 09_ring.md). -/

namespace Sys2Proof.Machine

/-- REGISTER_WRITE (R4, R7 to R9). -/
def execRegisterWrite (src : Src) (off : Offs) (bytes : Nat) (value : Word) (s : State) : Host.Outcome State Fault Refusal :=
  latAct s (fun d => wordWrite d src off.toNat bytes value)

/-- LOW_HALF_READ (R5): the high half is latched; at an offset that is no low half, the read of that register (R8). -/
def execLowHalfRead (src : Src) (off : Offs) (bytes : Nat) (s : State) : Host.Outcome State Fault Refusal :=
  latAct s (fun d => wordRead d src off.toNat bytes)

/-- LOW_HALF_WRITE (R5): staged; at an offset that is no low half, the write of that register. -/
def execLowHalfWrite (src : Src) (off : Offs) (value : Word) (s : State) : Host.Outcome State Fault Refusal :=
  latAct s (fun d => wordWrite d src off.toNat 4 value)

/-- HIGH_HALF_WRITE (R5): both halves are committed; at an offset that is no high half, the write of that register. -/
def execHighHalfWrite (src : Src) (off : Offs) (value : Word) (s : State) : Host.Outcome State Fault Refusal :=
  latAct s (fun d => wordWrite d src off.toNat 4 value)

/-- MEM_WRITE (R427). -/
def execMemWrite (addr : BitVec 22) (w : Word) (s : State) : Host.Outcome State Fault Refusal :=
  latAct s (fun d => accessStep d (.mem (4 * addr.toNat) w))

/-- LQ_WINDOW_WRITE (R108). -/
def execLqWindowWrite (n : ChanNo) (w : Fin 24) (value : Word) (s : State) : Host.Outcome State Fault Refusal :=
  latAct s (fun d => accessStep d (.lqWin n w.val value))

/-- LQ_COMMIT (R109). -/
def execLqCommit (n : ChanNo) (i : LqIdx) (s : State) : Host.Outcome State Fault Refusal :=
  latAct s (fun d => accessStep d (.commit n i))

/-- JOURNAL_POP (R137). -/
def execJournalPop (n : ChanNo) (s : State) : Host.Outcome State Fault Refusal := latAct s (fun d => accessStep d (.pop n))

/-- JOURNAL_WINDOW_READ (R139). -/
def execJournalWindowRead (n : ChanNo) (count : Fin 21) (s : State) : Host.Outcome State Fault Refusal :=
  latAct s (fun d => accessStep d (.window n count.val))

/-- LOCK_ACQUIRE (R247, R248, R432). -/
def execLockAcquire (src : Src) (i : LockNo) (lease : BitVec 16) (s : State) : Host.Outcome State Fault Refusal :=
  latAct s (fun d => accessStep d (.lock src i 1 lease))

/-- LOCK_RELEASE (R247). -/
def execLockRelease (src : Src) (i : LockNo) (lease : BitVec 16) (s : State) : Host.Outcome State Fault Refusal :=
  latAct s (fun d => accessStep d (.lock src i 2 lease))

/-- LOCK_RENEW (R247, R248). -/
def execLockRenew (src : Src) (i : LockNo) (lease : BitVec 16) (s : State) : Host.Outcome State Fault Refusal :=
  latAct s (fun d => accessStep d (.lock src i 3 lease))

/-- LOCK_CLEAR_BROKEN (R247). -/
def execLockClearBroken (src : Src) (i : LockNo) (lease : BitVec 16) (s : State) : Host.Outcome State Fault Refusal :=
  latAct s (fun d => accessStep d (.lock src i 4 lease))

/-- LOCK_BREAK (R247, R246). -/
def execLockBreak (src : Src) (i : LockNo) (lease : BitVec 16) (s : State) : Host.Outcome State Fault Refusal :=
  latAct s (fun d => accessStep d (.lock src i 5 lease))

end Sys2Proof.Machine
end

