-- ==== Sys2Proof/Machine/ServiceFamily.lean ====
section
/-! DEFINITION. The meanings of the service-port and update commands (15_service_update.md). -/

namespace Sys2Proof.Machine

/-- NSP_POLL (R368, R369): the ready response frame is sent, from its first byte. -/
def execNspPoll (s : State) : Host.Outcome State Fault Refusal :=
  latAct s (fun d => { d with svc := { d.svc with miso := d.svc.resp.getD [] } })

/-- NSP_FRAME_ABORTED (R368): the period is counted, and no response is produced. -/
def execNspFrameAborted (s : State) : Host.Outcome State Fault Refusal :=
  latAct s (fun d => { d with svc := { d.svc with framing := cntUp d.svc.framing } })

/-- READ (R373, R374). -/
def execRead (o : NspFrom) (q : NspReq) (s : State) : Host.Outcome State Fault Refusal := latAct s (fun d => nspCommand d o 0x01 q)

/-- WRITE (R373, R374). -/
def execWrite (o : NspFrom) (q : NspReq) (s : State) : Host.Outcome State Fault Refusal := latAct s (fun d => nspCommand d o 0x02 q)

/-- UPDATE_OPEN (R380, R381). -/
def execUpdateOpen (o : NspFrom) (q : NspReq) (s : State) : Host.Outcome State Fault Refusal :=
  latAct s (fun d => nspCommand d o 0x10 q)

/-- UPDATE_CHUNK (R381). -/
def execUpdateChunk (o : NspFrom) (q : NspReq) (s : State) : Host.Outcome State Fault Refusal :=
  latAct s (fun d => nspCommand d o 0x11 q)

/-- UPDATE_CLOSE (R382). -/
def execUpdateClose (o : NspFrom) (q : NspReq) (s : State) : Host.Outcome State Fault Refusal :=
  latAct s (fun d => nspCommand d o 0x12 q)

/-- COMMIT (R385). -/
def execCommit (o : NspFrom) (q : NspReq) (s : State) : Host.Outcome State Fault Refusal :=
  latAct s (fun d => nspCommand d o 0x13 q)

/-- SLOT_SELECT TRIAL (R383). -/
def execSlotSelectTrial (o : NspFrom) (q : NspReq) (s : State) : Host.Outcome State Fault Refusal :=
  latAct s (fun d => nspAction d o 1 q)

/-- SLOT_SELECT CANCEL (R383). -/
def execSlotSelectCancel (o : NspFrom) (q : NspReq) (s : State) : Host.Outcome State Fault Refusal :=
  latAct s (fun d => nspAction d o 2 q)

/-- SLOT_SELECT RESTART (R383). -/
def execSlotSelectRestart (o : NspFrom) (q : NspReq) (s : State) : Host.Outcome State Fault Refusal :=
  latAct s (fun d => nspAction d o 3 q)

/-- RECOVERY_PING (R376). -/
def execRecoveryPing (o : NspFrom) (q : NspReq) (s : State) : Host.Outcome State Fault Refusal :=
  latAct s (fun d => nspCommand d o 0x15 q)

/-- RESERVED_COMMAND (R373): a reserved or unavailable code, or a SLOT_SELECT of no action; a request that another row of the table
names is none of these. -/
def execReservedCommand (o : NspFrom) (code : Byte) (q : NspReq) (s : State) : Host.Outcome State Fault Refusal :=
  latAct s (fun d =>
    let named := available d code q && (decide (code ≠ 0x14#8) || [1, 2, 3].contains (leAt q.payload 0 1))
    if named then d else nspCommand d o code q)

/-- NSP_RESP (R375): a part of a tunnelled response of another station is received; nothing is delivered by station number before JOINING or in
COLLISION (R229, R230). -/
def execNspResp (c : RCell) (s : State) : Host.Outcome State Fault Refusal :=
  latAct s (fun d => if laneRuns d && delivers d then { d with svc := { d.svc with tunnel := some c } } else d)

/-- NSP_REASSEMBLY_TIMEOUT (R375): 10 ms after its part 0. -/
def execNspReassemblyTimeout (station : BitVec 10) (s : State) : Host.Outcome State Fault Refusal :=
  latAct s (fun d => { d with svc := { d.svc with
    reasm := d.svc.reasm.filter (fun r => decide (r.station ≠ station) || !reached d.tim.raw (rawAdd r.start (10 * msTicks))) } })

/-- UPDATE_SESSION_TIMEOUT (R380): 30 s after the response to the owner's last open or chunk. -/
def execUpdateSessionTimeout (s : State) : Host.Outcome State Fault Refusal :=
  latAct s (fun d => match d.svc.session with
    | some x => if reached d.tim.raw x.due then endSession d else d
    | none => d)

end Sys2Proof.Machine
end

