-- ==== Sys2Proof/Machine/Dispatch.lean ====
section
/-! DEFINITION. One arm for every command: a direct call of its meaning. -/

namespace Sys2Proof.Machine

/-- The effect of a command on everything but the queue. -/
def exec (i : Instr) (s : State) : Host.Outcome State Fault Refusal :=
  match i with
  | .registerWrite src off bytes value => Sys2Proof.Machine.execRegisterWrite src off bytes value s
  | .lowHalfRead src off bytes => Sys2Proof.Machine.execLowHalfRead src off bytes s
  | .lowHalfWrite src off value => Sys2Proof.Machine.execLowHalfWrite src off value s
  | .highHalfWrite src off value => Sys2Proof.Machine.execHighHalfWrite src off value s
  | .tempoMeasurement ps => Sys2Proof.Machine.execTempoMeasurement ps s
  | .peakClear => Sys2Proof.Machine.execPeakClear s
  | .vcoreEconEnter => Sys2Proof.Machine.execVcoreEconEnter s
  | .vcoreEconExit => Sys2Proof.Machine.execVcoreEconExit s
  | .lineReqOff n => Sys2Proof.Machine.execLineReqOff n s
  | .lineReqSleep n => Sys2Proof.Machine.execLineReqSleep n s
  | .lineReqNormal n => Sys2Proof.Machine.execLineReqNormal n s
  | .lineReqListen n => Sys2Proof.Machine.execLineReqListen n s
  | .termEnWrite n v => Sys2Proof.Machine.execTermEnWrite n v s
  | .localWakeEnWrite n v => Sys2Proof.Machine.execLocalWakeEnWrite n v s
  | .lineTransitionComplete n => Sys2Proof.Machine.execLineTransitionComplete n s
  | .wupRecognised n tick => Sys2Proof.Machine.execWupRecognised n tick s
  | .wufRecognised n tick f => Sys2Proof.Machine.execWufRecognised n tick f s
  | .wufErrcnt n tick => Sys2Proof.Machine.execWufErrcnt n tick s
  | .wakeNRecognised tick => Sys2Proof.Machine.execWakeNRecognised tick s
  | .tConfirmExpiry n => Sys2Proof.Machine.execTConfirmExpiry n s
  | .tOrphanExpiry d => Sys2Proof.Machine.execTOrphanExpiry d s
  | .sentinelHeartbeat d => Sys2Proof.Machine.execSentinelHeartbeat d s
  | .vlineUndervoltage d => Sys2Proof.Machine.execVlineUndervoltage d s
  | .vlineRestored d => Sys2Proof.Machine.execVlineRestored d s
  | .overTemperature d => Sys2Proof.Machine.execOverTemperature d s
  | .overTemperatureClear d => Sys2Proof.Machine.execOverTemperatureClear d s
  | .dominantTimeout n => Sys2Proof.Machine.execDominantTimeout n s
  | .domHoldRelease n => Sys2Proof.Machine.execDomHoldRelease n s
  | .lineCalStart n => Sys2Proof.Machine.execLineCalStart n s
  | .lineCalDone n result => Sys2Proof.Machine.execLineCalDone n result s
  | .biasRelease n => Sys2Proof.Machine.execBiasRelease n s
  | .vaonPorRelease => Sys2Proof.Machine.execVaonPorRelease s
  | .vaonPorAssert => Sys2Proof.Machine.execVaonPorAssert s
  | .sofOnBus n loop => Sys2Proof.Machine.execSofOnBus n loop s
  | .rxFrameValid n f => Sys2Proof.Machine.execRxFrameValid n f s
  | .txFrameValid n => Sys2Proof.Machine.execTxFrameValid n s
  | .arbitrationLost n => Sys2Proof.Machine.execArbitrationLost n s
  | .errorDetected n kind field idx cnt => Sys2Proof.Machine.execErrorDetected n kind field idx cnt s
  | .protocolException n field idx => Sys2Proof.Machine.execProtocolException n field idx s
  | .overloadSent n field => Sys2Proof.Machine.execOverloadSent n field s
  | .busIntegration n => Sys2Proof.Machine.execBusIntegration n s
  | .recoveryStart n => Sys2Proof.Machine.execRecoveryStart n s
  | .recoveryDone n => Sys2Proof.Machine.execRecoveryDone n s
  | .lqWindowWrite n w value => Sys2Proof.Machine.execLqWindowWrite n w value s
  | .lqCommit n idx => Sys2Proof.Machine.execLqCommit n idx s
  | .launchTimeReached n idx => Sys2Proof.Machine.execLaunchTimeReached n idx s
  | .lqCancel n idx => Sys2Proof.Machine.execLqCancel n idx s
  | .lqCancelAll n => Sys2Proof.Machine.execLqCancelAll n s
  | .cancelApply n => Sys2Proof.Machine.execCancelApply n s
  | .journalWrite n => Sys2Proof.Machine.execJournalWrite n s
  | .journalPop n => Sys2Proof.Machine.execJournalPop n s
  | .journalWindowRead n count => Sys2Proof.Machine.execJournalWindowRead n count s
  | .setMark n => Sys2Proof.Machine.execSetMark n s
  | .rewind n => Sys2Proof.Machine.execRewind n s
  | .clearMark n => Sys2Proof.Machine.execClearMark n s
  | .flush n => Sys2Proof.Machine.execFlush n s
  | .ballotGo n => Sys2Proof.Machine.execBallotGo n s
  | .ballotAbort n => Sys2Proof.Machine.execBallotAbort n s
  | .clearLog n => Sys2Proof.Machine.execClearLog n s
  | .ballotWindowEnd n => Sys2Proof.Machine.execBallotWindowEnd n s
  | .preArm n => Sys2Proof.Machine.execPreArm n s
  | .arm n => Sys2Proof.Machine.execArm n s
  | .descentEnd n => Sys2Proof.Machine.execDescentEnd n s
  | .holdWithdraw n => Sys2Proof.Machine.execHoldWithdraw n s
  | .reballot n => Sys2Proof.Machine.execReballot n s
  | .wakeCalStart n => Sys2Proof.Machine.execWakeCalStart n s
  | .wakeCalDone n taps => Sys2Proof.Machine.execWakeCalDone n taps s
  | .wakeValidExpiry n tick => Sys2Proof.Machine.execWakeValidExpiry n tick s
  | .wakeModeWrite n frameOnly => Sys2Proof.Machine.execWakeModeWrite n frameOnly s
  | .timeNowRead => Sys2Proof.Machine.execTimeNowRead s
  | .offsetRead => Sys2Proof.Machine.execOffsetRead s
  | .offsetIncCommit src hi => Sys2Proof.Machine.execOffsetIncCommit src hi s
  | .rateIncCommit src hi => Sys2Proof.Machine.execRateIncCommit src hi s
  | .incrementApply => Sys2Proof.Machine.execIncrementApply s
  | .conversionStart hi => Sys2Proof.Machine.execConversionStart hi s
  | .conversionDone => Sys2Proof.Machine.execConversionDone s
  | .beaconSend => Sys2Proof.Machine.execBeaconSend s
  | .beacon at_ c rc k => Sys2Proof.Machine.execBeacon at_ c rc k s
  | .pdelayReqSend p => Sys2Proof.Machine.execPdelayReqSend p s
  | .pdelayReq p c rc k => Sys2Proof.Machine.execPdelayReq p c rc k s
  | .pdelayResp p c rc k => Sys2Proof.Machine.execPdelayResp p c rc k s
  | .masterLost => Sys2Proof.Machine.execMasterLost s
  | .timeMasterWrite station => Sys2Proof.Machine.execTimeMasterWrite station s
  | .ringEnWrite v => Sys2Proof.Machine.execRingEnWrite v s
  | .rejoin => Sys2Proof.Machine.execRejoin s
  | .retrainEast => Sys2Proof.Machine.execRetrainEast s
  | .retrainWest => Sys2Proof.Machine.execRetrainWest s
  | .retrainMirror => Sys2Proof.Machine.execRetrainMirror s
  | .blockLock p => Sys2Proof.Machine.execBlockLock p s
  | .phiMeasured p phi u => Sys2Proof.Machine.execPhiMeasured p phi u s
  | .trainSend p => Sys2Proof.Machine.execTrainSend p s
  | .train at_ station opposite nbrUp => Sys2Proof.Machine.execTrain at_ station opposite nbrUp s
  | .joinComplete => Sys2Proof.Machine.execJoinComplete s
  | .ownerReset at_ c => Sys2Proof.Machine.execOwnerReset at_ c s
  | .topo at_ c => Sys2Proof.Machine.execTopo at_ c s
  | .topoSend => Sys2Proof.Machine.execTopoSend s
  | .mapAgeing station => Sys2Proof.Machine.execMapAgeing station s
  | .linkFailure p cause => Sys2Proof.Machine.execLinkFailure p cause s
  | .spanDown at_ => Sys2Proof.Machine.execSpanDown at_ s
  | .cellArrival at_ c => Sys2Proof.Machine.execCellArrival at_ c s
  | .cellEgress at_ => Sys2Proof.Machine.execCellEgress at_ s
  | .roleEpochReturn c => Sys2Proof.Machine.execRoleEpochReturn c s
  | .retryWaitExpiry seq => Sys2Proof.Machine.execRetryWaitExpiry seq s
  | .routeUpdate at_ c => Sys2Proof.Machine.execRouteUpdate at_ c s
  | .rdReq at_ => Sys2Proof.Machine.execRdReq at_ s
  | .wrReq at_ => Sys2Proof.Machine.execWrReq at_ s
  | .wrPosted at_ => Sys2Proof.Machine.execWrPosted at_ s
  | .rdResp c => Sys2Proof.Machine.execRdResp c s
  | .wrAck c => Sys2Proof.Machine.execWrAck c s
  | .lockResp c => Sys2Proof.Machine.execLockResp c s
  | .requestTimeout seq => Sys2Proof.Machine.execRequestTimeout seq s
  | .sfpInsert p a0 => Sys2Proof.Machine.execSfpInsert p a0 s
  | .sfpPoll p a2 => Sys2Proof.Machine.execSfpPoll p a2 s
  | .lockReq at_ => Sys2Proof.Machine.execLockReq at_ s
  | .lockAcquire src idx lease => Sys2Proof.Machine.execLockAcquire src idx lease s
  | .lockRelease src idx lease => Sys2Proof.Machine.execLockRelease src idx lease s
  | .lockRenew src idx lease => Sys2Proof.Machine.execLockRenew src idx lease s
  | .lockClearBroken src idx lease => Sys2Proof.Machine.execLockClearBroken src idx lease s
  | .lockBreak src idx lease => Sys2Proof.Machine.execLockBreak src idx lease s
  | .leaseExpiry idx => Sys2Proof.Machine.execLeaseExpiry idx s
  | .concourseRequest q part r => Sys2Proof.Machine.execConcourseRequest q part r s
  | .concourseDecision r => Sys2Proof.Machine.execConcourseDecision r s
  | .concourseRelease r => Sys2Proof.Machine.execConcourseRelease r s
  | .conFreezeWrite mask => Sys2Proof.Machine.execConFreezeWrite mask s
  | .heartbeatSend => Sys2Proof.Machine.execHeartbeatSend s
  | .heartbeat q m => Sys2Proof.Machine.execHeartbeat q m s
  | .heartbeatLoss => Sys2Proof.Machine.execHeartbeatLoss s
  | .checkTimeout => Sys2Proof.Machine.execCheckTimeout s
  | .splitCheckTimer => Sys2Proof.Machine.execSplitCheckTimer s
  | .lqWin q n idx w value => Sys2Proof.Machine.execLqWin q n idx w value s
  | .lqState q n idx st cancel late committed => Sys2Proof.Machine.execLqState q n idx st cancel late committed s
  | .fc q n tec rec st => Sys2Proof.Machine.execFc q n tec rec st s
  | .jpos q n op time => Sys2Proof.Machine.execJpos q n op time s
  | .time q rate offset gen boundary => Sys2Proof.Machine.execTime q rate offset gen boundary s
  | .ballot q n phase number windowEnd descentEnd sleepOrder => Sys2Proof.Machine.execBallot q n phase number windowEnd descentEnd sleepOrder s
  | .holdlog q n idx e => Sys2Proof.Machine.execHoldlog q n idx e s
  | .context q k c regs => Sys2Proof.Machine.execContext q k c regs s
  | .lock q idx owner held leaseMs leaseEnd broken => Sys2Proof.Machine.execLock q idx owner held leaseMs leaseEnd broken s
  | .epoch q pairEpoch stEpoch castled => Sys2Proof.Machine.execEpoch q pairEpoch stEpoch castled s
  | .token q channels why => Sys2Proof.Machine.execToken q channels why s
  | .resync q => Sys2Proof.Machine.execResync q s
  | .forceResync => Sys2Proof.Machine.execForceResync s
  | .castle => Sys2Proof.Machine.execCastle s
  | .channelCastle n => Sys2Proof.Machine.execChannelCastle n s
  | .tokenRelease n => Sys2Proof.Machine.execTokenRelease n s
  | .mirrorUpTimeout => Sys2Proof.Machine.execMirrorUpTimeout s
  | .partnerWaitTimeout => Sys2Proof.Machine.execPartnerWaitTimeout s
  | .joinWaitTimeout => Sys2Proof.Machine.execJoinWaitTimeout s
  | .engineStart k => Sys2Proof.Machine.execEngineStart k s
  | .engineStop k => Sys2Proof.Machine.execEngineStop k s
  | .engineStopped k cells => Sys2Proof.Machine.execEngineStopped k cells s
  | .stallEnd k c => Sys2Proof.Machine.execStallEnd k c s
  | .illegal k c => Sys2Proof.Machine.execIllegal k c s
  | .add k c rd ra rb => Sys2Proof.Machine.execAdd k c rd ra rb s
  | .sub k c rd ra rb => Sys2Proof.Machine.execSub k c rd ra rb s
  | .and k c rd ra rb => Sys2Proof.Machine.execAnd k c rd ra rb s
  | .or k c rd ra rb => Sys2Proof.Machine.execOr k c rd ra rb s
  | .xor k c rd ra rb => Sys2Proof.Machine.execXor k c rd ra rb s
  | .shl k c rd ra rb => Sys2Proof.Machine.execShl k c rd ra rb s
  | .shr k c rd ra rb => Sys2Proof.Machine.execShr k c rd ra rb s
  | .sra k c rd ra rb => Sys2Proof.Machine.execSra k c rd ra rb s
  | .addi k c rd ra imm => Sys2Proof.Machine.execAddi k c rd ra imm s
  | .andi k c rd ra imm => Sys2Proof.Machine.execAndi k c rd ra imm s
  | .ori k c rd ra imm => Sys2Proof.Machine.execOri k c rd ra imm s
  | .xori k c rd ra imm => Sys2Proof.Machine.execXori k c rd ra imm s
  | .shli k c rd ra sh => Sys2Proof.Machine.execShli k c rd ra sh s
  | .shri k c rd ra sh => Sys2Proof.Machine.execShri k c rd ra sh s
  | .srai k c rd ra sh => Sys2Proof.Machine.execSrai k c rd ra sh s
  | .ldi k c rd imm => Sys2Proof.Machine.execLdi k c rd imm s
  | .ldh k c rd imm => Sys2Proof.Machine.execLdh k c rd imm s
  | .ext k c rd ra pos lenM1 => Sys2Proof.Machine.execExt k c rd ra pos lenM1 s
  | .beq k c ra rb target => Sys2Proof.Machine.execBeq k c ra rb target s
  | .bne k c ra rb target => Sys2Proof.Machine.execBne k c ra rb target s
  | .blt k c ra rb target => Sys2Proof.Machine.execBlt k c ra rb target s
  | .bge k c ra rb target => Sys2Proof.Machine.execBge k c ra rb target s
  | .bltu k c ra rb target => Sys2Proof.Machine.execBltu k c ra rb target s
  | .bgeu k c ra rb target => Sys2Proof.Machine.execBgeu k c ra rb target s
  | .beqi k c ra imm target => Sys2Proof.Machine.execBeqi k c ra imm target s
  | .bnei k c ra imm target => Sys2Proof.Machine.execBnei k c ra imm target s
  | .jmp k c target => Sys2Proof.Machine.execJmp k c target s
  | .call k c target => Sys2Proof.Machine.execCall k c target s
  | .jr k c ra => Sys2Proof.Machine.execJr k c ra s
  | .sld k c rd ra imm => Sys2Proof.Machine.execSld k c rd ra imm s
  | .sst k c rd ra imm => Sys2Proof.Machine.execSst k c rd ra imm s
  | .mld k c rd ra imm => Sys2Proof.Machine.execMld k c rd ra imm s
  | .mst k c rd ra imm => Sys2Proof.Machine.execMst k c rd ra imm s
  | .ppush k c ra cell => Sys2Proof.Machine.execPpush k c ra cell s
  | .ppop k c rd cell => Sys2Proof.Machine.execPpop k c rd cell s
  | .ppopn k c rd rv cell => Sys2Proof.Machine.execPpopn k c rd rv cell s
  | .jrd k c rd rt => Sys2Proof.Machine.execJrd k c rd rt s
  | .jpk k c rd => Sys2Proof.Machine.execJpk k c rd s
  | .jwait k c imm => Sys2Proof.Machine.execJwait k c imm s
  | .lqw k c rd ra w => Sys2Proof.Machine.execLqw k c rd ra w s
  | .txq k c rd ra => Sys2Proof.Machine.execTxq k c rd ra s
  | .txc k c ra => Sys2Proof.Machine.execTxc k c ra s
  | .trd k c rd => Sys2Proof.Machine.execTrd k c rd s
  | .tconv k c rd ra rb rc => Sys2Proof.Machine.execTconv k c rd ra rb rc s
  | .waita k c ra imm => Sys2Proof.Machine.execWaita k c ra imm s
  | .waitd k c imm => Sys2Proof.Machine.execWaitd k c imm s
  | .rpost k c ra rb rc nM1 => Sys2Proof.Machine.execRpost k c ra rb rc nM1 s
  | .msync k c => Sys2Proof.Machine.execMsync k c s
  | .halt k c => Sys2Proof.Machine.execHalt k c s
  | .pinRxWord p w => Sys2Proof.Machine.execPinRxWord p w s
  | .pinTxLoad p => Sys2Proof.Machine.execPinTxLoad p s
  | .pinTxWordEnd p => Sys2Proof.Machine.execPinTxWordEnd p s
  | .pinEdge p level => Sys2Proof.Machine.execPinEdge p level s
  | .pinAsyncStart p level => Sys2Proof.Machine.execPinAsyncStart p level s
  | .pinHostPush p w => Sys2Proof.Machine.execPinHostPush p w s
  | .pinHostPop p => Sys2Proof.Machine.execPinHostPop p s
  | .memWrite addr w => Sys2Proof.Machine.execMemWrite addr w s
  | .imageVerify => Sys2Proof.Machine.execImageVerify s
  | .imageApply => Sys2Proof.Machine.execImageApply s
  | .districtHold src d => Sys2Proof.Machine.execDistrictHold src d s
  | .districtRelease src d => Sys2Proof.Machine.execDistrictRelease src d s
  | .drainComplete => Sys2Proof.Machine.execDrainComplete s
  | .holdTimeout => Sys2Proof.Machine.execHoldTimeout s
  | .nspPoll => Sys2Proof.Machine.execNspPoll s
  | .nspFrameAborted => Sys2Proof.Machine.execNspFrameAborted s
  | .read o q => Sys2Proof.Machine.execRead o q s
  | .write o q => Sys2Proof.Machine.execWrite o q s
  | .updateOpen o q => Sys2Proof.Machine.execUpdateOpen o q s
  | .updateChunk o q => Sys2Proof.Machine.execUpdateChunk o q s
  | .updateClose o q => Sys2Proof.Machine.execUpdateClose o q s
  | .commit o q => Sys2Proof.Machine.execCommit o q s
  | .slotSelectTrial o q => Sys2Proof.Machine.execSlotSelectTrial o q s
  | .slotSelectCancel o q => Sys2Proof.Machine.execSlotSelectCancel o q s
  | .slotSelectRestart o q => Sys2Proof.Machine.execSlotSelectRestart o q s
  | .recoveryPing o q => Sys2Proof.Machine.execRecoveryPing o q s
  | .reservedCommand o code q => Sys2Proof.Machine.execReservedCommand o code q s
  | .nspReq at_ => Sys2Proof.Machine.execNspReq at_ s
  | .nspResp c => Sys2Proof.Machine.execNspResp c s
  | .nspReassemblyTimeout station => Sys2Proof.Machine.execNspReassemblyTimeout station s
  | .updateSessionTimeout => Sys2Proof.Machine.execUpdateSessionTimeout s
  | .trialTimerExpiry => Sys2Proof.Machine.execTrialTimerExpiry s
  | .restartDelayExpiry => Sys2Proof.Machine.execRestartDelayExpiry s
  | .tagPersist => Sys2Proof.Machine.execTagPersist s
  | .tagPersistTimer => Sys2Proof.Machine.execTagPersistTimer s
  | .ledgerWriteDone => Sys2Proof.Machine.execLedgerWriteDone s
  | .latticePorAssert => Sys2Proof.Machine.execLatticePorAssert s
  | .rstNAssert => Sys2Proof.Machine.execRstNAssert s
  | .restart => Sys2Proof.Machine.execRestart s
  | .watchdogExpiry => Sys2Proof.Machine.execWatchdogExpiry s
  | .latticeResetRelease recoverLow tick => Sys2Proof.Machine.execLatticeResetRelease recoverLow tick s
  | .startService => Sys2Proof.Machine.execStartService s
  | .standbyRequest => Sys2Proof.Machine.execStandbyRequest s
  | .standbyCancel => Sys2Proof.Machine.execStandbyCancel s
  | .wakeNReturnHigh => Sys2Proof.Machine.execWakeNReturnHigh s
  | .decodingTraffic n => Sys2Proof.Machine.execDecodingTraffic n s
  | .decoderFrameEnd n valid => Sys2Proof.Machine.execDecoderFrameEnd n valid s
  | .partialCellDiscard p => Sys2Proof.Machine.execPartialCellDiscard p s
  | .mirrorCellError => Sys2Proof.Machine.execMirrorCellError s
  | .rxFrameSof n => Sys2Proof.Machine.execRxFrameSof n s
  | .journalWordStaged n p => Sys2Proof.Machine.execJournalWordStaged n p s
  | .followPreArm n => Sys2Proof.Machine.execFollowPreArm n s
  | .vioBLow => Sys2Proof.Machine.execVioBLow s
  | .vioBRestored => Sys2Proof.Machine.execVioBRestored s

end Sys2Proof.Machine
end

