-- ==== Sys2Proof/Machine/Tick.lean ====
section
/-! DEFINITION. What happens when no command waits: one T edge (R189). -/

namespace Sys2Proof.Machine

/-- One T edge while the lattice die is out of reset: the raw counter advances, a committed increment on its way is applied (R189, R192),
and a start-up goes on by a step (R400; log 140); whatever else falls due at an edge is a command of its own (log 3). -/
def tick (d : Device) : Device := if d.glb.latUp then bootStep (tEdge d) else d

end Sys2Proof.Machine
end

