-- ==== Sys2Proof/Safety.lean ====
section
/-! DEFINITION. What counts as a safe step, and the canonical form of the stores. -/

namespace Sys2Proof.Machine

/-- A step ends in a next state: no fault, no refusal. -/
def SafeStep (s : State) : Prop := ∃ t, step s = .next t

/-- The sparse stores of the SRAM are in their one canonical form, so that equal contents are equal data. -/
def sramWf (m : Sram) : Bool :=
  tabWf (0 : Byte) m.bytes && tabWf false m.ends && tabWf (0 : BitVec 40) m.flips

/-- The sparse store of the flash is in its one canonical form. -/
def flashWf (f : Flash) : Bool := tabWf (0xFF : Byte) f.bytes

/-- Every addressed store of the device is in its canonical form. -/
def storesWf (d : Device) : Bool := sramWf d.sram && flashWf d.flash

end Sys2Proof.Machine
end

