-- ==== Sys2Proof/WellFormed.lean ====
section
/-! DEFINITION. Which operands a command can have: what no bus, ring or host can deliver is ill-formed. -/

namespace Sys2Proof

/-- A bus frame (R72, R129): an 11-bit identifier without IDE, no BRS or ESI in a classical frame, and as many data bytes as
its DLC says. -/
def frameWf (f : Frame) : Bool :=
  (f.ide || decide (f.ident.toNat < 2048)) && (f.fdf || (!f.brs && !f.esi)) && decide (f.data.length = Machine.frameLen f)

/-- A ring cell (R218): 64 payload bytes. -/
def cellWf (c : RCell) : Bool := decide (c.payload.length = 64)

/-- A register access is of 1, 2, 4 or 8 bytes. -/
def widthWf (bytes : Nat) : Bool := [1, 2, 4, 8].contains bytes

/-- An NSP request's payload (R370): at most 1 028 bytes. -/
def nspWf (q : NspReq) : Bool := decide (q.payload.length ≤ 1028)

/-- What a command's operands must satisfy. -/
def WellFormed (i : Instr) : Bool :=
  match i with
  | .registerWrite _ _ bytes _ => widthWf bytes
  | .lowHalfRead _ _ bytes => widthWf bytes
  | .wufRecognised _ _ f => frameWf f
  | .rxFrameValid _ f => frameWf f
  | .journalWordStaged _ (.head f) => frameWf { f with data := List.replicate (Machine.frameLen f) 0 }
  | .beacon _ c _ _ => cellWf c
  | .pdelayReq _ c _ _ => cellWf c
  | .pdelayResp _ c _ _ => cellWf c
  | .ownerReset _ c => cellWf c
  | .topo _ c => cellWf c
  | .cellArrival _ c => cellWf c
  | .routeUpdate _ c => cellWf c
  | .roleEpochReturn c => cellWf c
  | .rdResp c => cellWf c
  | .wrAck c => cellWf c
  | .lockResp c => cellWf c
  | .nspResp c => cellWf c
  | .concourseRequest q part _ => decide (part = .whole) == decide (64 ≤ q.val)
  | .sfpInsert _ a0 => decide (a0.length ≤ 96)
  | .sfpPoll _ a2 => decide (a2.length ≤ 12)
  | .read _ q => nspWf q
  | .write _ q => nspWf q
  | .updateOpen _ q => nspWf q
  | .updateChunk _ q => nspWf q
  | .updateClose _ q => nspWf q
  | .commit _ q => nspWf q
  | .slotSelectTrial _ q => nspWf q
  | .slotSelectCancel _ q => nspWf q
  | .slotSelectRestart _ q => nspWf q
  | .recoveryPing _ q => nspWf q
  | .reservedCommand _ _ q => nspWf q
  | _ => true

end Sys2Proof
end

