-- ==== Sys2Proof/Certificates/Slice0/Obligations.lean ====
section
/-! DEFINITION. The statements for the provers. A statement about a command names its condition as hypotheses on the state
and the operands, says that exec answers a next state there, what that state holds, and what it leaves unchanged. -/

namespace Sys2Proof.Stated

open Sys2Proof.Machine

/-- The lattice die is out of reset (R396). -/
abbrev Up (s : State) : Prop := s.dev.glb.latUp = true

/-- The always-on domain has power (R395). -/
abbrev Vaon (s : State) : Prop := s.dev.glb.vaonUp = true

/-- Command c at s answers a next state: the queue as it was, and a device of which P holds. -/
def Runs (c : Instr) (s : State) (P : Device → Prop) : Prop :=
  ∃ t : State, exec c s = .next t ∧ t.pending = s.pending ∧ P t.dev

/-- Command c at s answers the next state with device d and the queue as it was. -/
def RunsTo (c : Instr) (s : State) (d : Device) : Prop := exec c s = .next { s with dev := d }

/-- A step at s with no command waiting answers a next state with none waiting, and a device of which P holds. -/
def Ticks (s : State) (P : Device → Prop) : Prop := ∃ t : State, step s = .next t ∧ t.pending = s.pending ∧ P t.dev

/-- The parts that an event, a journal entry, a checked read or a mirror cell of any channel may change, blanked: event bits
and sequence, ECC counters, the counter of free values, cells waiting for the ring and the mirror, CON_STARVE, the work that waits for a bank. -/
def hush (d : Device) : Device :=
  { d with
    glb := { d.glb with evtPend := 0, evtSeq := 0, free := 0, eccCorr := {}, eccUncorr := {} }
    ring := { d.ring with nextSeq := 0, outEast := [], outWest := [] }
    con := { d.con with starve := 0, waits := [] }
    pair := { d.pair with mirOut := [] } }

/-- The device less channel n and what a channel may send. -/
def apart (n : ChanNo) (d : Device) : Device := hush { d with ch := d.ch.set n {} }

/-- The frame of a command of channel n that stores nothing: from d to t all but channel n and what it may send is
unchanged, every byte of the SRAM and the flash with it. -/
def OnlyChan (n : ChanNo) (d t : Device) : Prop := apart n t = apart n d

/-- The same for the channels of a list. -/
def OnlyChans (ns : List ChanNo) (d t : Device) : Prop :=
  hush { t with ch := d.ch } = hush d ∧ ∀ m, m ∉ ns → chan t m = chan d m

/-- SRAM offset a lies in a word of channel n's journal or of its launch queue, as d has them placed (R106, R126). -/
def InChanStore (d : Device) (n : ChanNo) (a : Nat) : Prop :=
  (∃ p b, b < 4 ∧ a = jPlace (chan d n).jn p + b) ∨ (∃ i w b, w < 24 ∧ b < 4 ∧ a = lqPlace d n i w + b)

/-- The frame of a command of channel n that stores into its journal or its launch queue: every byte of the SRAM outside
them reads as before, and all but channel n, those bytes with their marks, and what it may send is unchanged. -/
def OnlyChanStored (n : ChanNo) (d t : Device) : Prop :=
  apart n { t with sram := d.sram } = apart n d ∧ ∀ a, ¬ InChanStore d n a → sramByte t a = sramByte d a

/-- The device with the concourse's arbiters, tables and waits blanked, for a command that takes a bank in its turn (R259, R263). -/
def noBanks (d : Device) : Device :=
  { d with con := { d.con with res := Vector.replicate 20 {}, slots := [], ranks := [], waits := [] } }

/-- The bank of an SRAM offset is x's to use: its own, or idle, unfrozen and wanted by no other, with x free to turn to it (R257,
R259, R265, R267, R462). -/
abbrev BankFree (d : Device) (x : Requester) (a : Nat) : Prop := canUse d x (bankOf a) = true

/-- An access has its turn now: no earlier one of its requester waits, and all it takes of the concourse is its requester's for the
asking (R256, R257, R259; the requester of each access is the model's choice, log 133). -/
abbrev Served (d : Device) (x : Access) : Prop := accessBehind d x = false ∧ canAll d (accessReq x) (accessNeeds d x) = true

/-- What a bank's use leaves as it was: all but the arbiters, the tables and the waits of the concourse. -/
def OnlyBanks (d t : Device) : Prop := noBanks t = noBanks d

/-- An access that has no turn yet waits, the last of those that wait, and all but the concourse is as it was (R257). -/
def Waits (d : Device) (x : Access) (t : Device) : Prop :=
  t.con.access = d.con.access ++ [x] ∧ noBanks { t with con := { t.con with access := d.con.access } } = noBanks d

/-- Where the journal of channel n is placed and its staging buffer has room, the entry of words ws stands last in it (R272). -/
def Notes (n : ChanNo) (ws : List Word) (d t : Device) : Prop :=
  journalOn d n = true → stagedWords (chan d n).jn + ws.length ≤ 24 →
    (chan t n).jn = { (chan d n).jn with staging := (chan d n).jn.staging ++ [.whole ws none] }

/-- The words of a BUS_STATE entry taken now (R132). -/
def busStateNow (d : Device) (code : Nat) (w4 : Word) : List Word :=
  plainWords d.tim.raw d.tim.gen 3 (pack [(0, code)]) [w4]

/-- A moment that lay at r has n T ticks behind it, or has not been yet. -/
def Elapsed (d : Device) (r : Option Raw) (n : Nat) : Prop := ∀ x, r = some x → n ≤ (d.tim.raw - x).toNat

/-- Nothing but the ring unit, the time unit, the reference selection and what the station may send has changed. -/
def OnlyRing (d t : Device) : Prop := hush { t with ring := d.ring, tim := d.tim, lat := d.lat } = hush d

/-- A cell passes the checks of arrival (R220, R224). -/
abbrev Sound (c : Sys2Proof.RCell) : Prop := c.crc = cellCrc c ∧ c.hop ≠ 1023

/-- A new cell of this station: its seq the next ring cell sequence, which seq_echo repeats (R219). -/
def cellOf (d : Device) (ctype : BitVec 6) (dest : BitVec 10) (epoch : BitVec 8) (body : List Sys2Proof.Byte) : Sys2Proof.RCell :=
  { dest := dest, src := d.ring.station, ctype := ctype, seq := d.ring.nextSeq, epoch := epoch, hop := 0, bcast := false, pair := false
    retried := false, wrapOdd := false, payload := fitTo 64 body, seqEcho := d.ring.nextSeq, crc := 0 }

/-- The cells that wait for a side of the ring, with their requesters. -/
def outOf (d : Device) (s : Sys2Proof.Side) : List (ReqNo × Sys2Proof.RCell) :=
  match s with
  | .east => d.ring.outEast
  | .west => d.ring.outWest

/-- A port has met a cell other than SPAN_DOWN: a run of those is broken (R231). -/
def met (d : Device) (p : Sys2Proof.Port) : Device := onPort d p (fun q => { q with spanDowns := 0, spanDownRx := false })

/-- The reference that the first row of R30 selects whose condition holds: REFCLK, WRX, ERX, HOLDOVER; it holds over
while the master is lost and, where WRX does not hold, while the topology is learnt anew. -/
def reference (d : Device) : BitVec 2 :=
  if d.lat.trained = false ∨ (d.tim.master = true ∧ d.ring.numbered = true ∧ d.tim.masterSt = d.ring.station) then 0
  else if d.tim.masterLost = true then 3
  else if d.ring.west.blockLock = true ∧ d.ring.wrapWest = false ∧ (mapOf d d.tim.masterSt).ccwOk = true then 1
  else if d.lat.learning = true then 3
  else if d.ring.east.blockLock = true ∧ d.ring.wrapEast = false ∧ (mapOf d d.tim.masterSt).cwOk = true then 2 else 3

/-- The device with its reference selected by those rows; a change sets ref_switched (R31). -/
def referred (d : Device) : Device :=
  if reference d = d.lat.refSel then d else { d with lat := { d.lat with refSel := reference d, refSwitched := true } }

/-- The next turn of engine k, in RUN, is context c's, and w stands at its pc (R307). -/
abbrev Turn (s : State) (k : EngNo) (c : CtxNo) (w : Word) : Prop :=
  Up s ∧ s.dev.eng[k].st = .run ∧ nextTurn s.dev.eng[k] = some c ∧ progAt s.dev.eng[k] (ctxOf s.dev k c).pc = w

/-- The device after context c of engine k has completed an instruction: registers g, pc at x, READY, its turn taken (R307,
R331). -/
def retired (d : Device) (k : EngNo) (c : CtxNo) (g : Vector Word 16) (x : BitVec 10) : Device :=
  onEng d k (fun e => { e with
    last := c, ctx := e.ctx.set c { e.ctx[c] with g := g, pc := x, st := .ready, cause := 0, wait := .none } })

/-- The same with rd written and pc one on. -/
def wrote (d : Device) (k : EngNo) (c : CtxNo) (rd : GReg) (v : Word) : Device :=
  retired d k c ((ctxOf d k c).g.set rd v) ((ctxOf d k c).pc + 1)

/-- The device after an instruction of context c has faulted (R333). -/
def faulted (d : Device) (k : EngNo) (c : CtxNo) (cause : BitVec 4) : Device :=
  onEng d k (fun e => { e with
    last := c, faultSeen := true, ctx := e.ctx.set c { e.ctx[c] with st := .faulted, cause := cause, wait := .none } })

/-- The device after an instruction of context c has stalled with a cause (R308). -/
def blocked (d : Device) (k : EngNo) (c : CtxNo) (cause : BitVec 4) (w : CtxWait) : Device :=
  onEng d k (fun e => { e with last := c, ctx := e.ctx.set c { e.ctx[c] with st := .stalled, cause := cause, wait := w } })

/-- A mirror cell numbered q comes in order: the lane has block lock and no cell has been missed (R29, R216, R283). -/
abbrev InOrder (s : State) (q : BitVec 16) : Prop :=
  s.dev.ring.mirror.blockLock = true ∧ ∀ l, s.dev.pair.mirGot = some l → q = l + 1

/-- MRX has taken every mirror cell that has come: none waits for a bank or the lock table (R255, R257). -/
abbrev MrxIdle (s : State) : Prop := s.dev.pair.mrxQ = [] ∧ noWait s.dev mrxReq .mirror = s.dev

/-- The device that has noted mirror cell q as its last (R283). -/
def heardOn (d : Device) (q : BitVec 16) : Device := { d with pair := { d.pair with mirGot := some q } }

/-- The device after an instruction has gone to the memory port, which stalls the context with cause 1; an idle port takes it up
and requests the bank of the SRAM offset a that it needs, if any (R308, R310, R333). -/
def atThePort (d : Device) (k : EngNo) (c : CtxNo) (a : Option Nat) : Device :=
  let t := blocked d k c 1 .pending
  if d.eng[k].port = none then
    let t := onEng t k (fun e => { e with port := some c })
    match a with
    | some x => turnTo t (portReq k) (bankOf x)
    | none => t
  else t

/-- The memory port of engine k has served context c, which is READY with ws latched, and has left the rest of the device as e shows
it (R308, R333). -/
def PortServed (d : Device) (k : EngNo) (c : CtxNo) (ws : List Word) (e t : Device) : Prop :=
  ctxOf t k c = { ctxOf d k c with st := .ready, cause := 0, wait := .done ws } ∧ (∀ j : CtxNo, j ≠ c → ctxOf t k j = ctxOf d k j) ∧
  (∀ j : EngNo, j ≠ k → t.eng[j] = d.eng[j]) ∧ { t.eng[k] with ctx := d.eng[k].ctx, port := d.eng[k].port } = d.eng[k] ∧
  noBanks { t with eng := d.eng } = noBanks { e with eng := d.eng }

/-- The device after a stall of context c has ended with w (R308). -/
def woken (d : Device) (k : EngNo) (c : CtxNo) (w : CtxWait) : Device :=
  onCtx d k c (fun x => { x with st := .ready, cause := 0, wait := w })

/-- A new request of the service port discards the unread response and takes the place of a request of the port's own that has not
been begun (R369; log 124). -/
def heardFrom (d : Device) (o : Sys2Proof.NspFrom) : Device :=
  if o = .port then { d with svc := { d.svc with
    resp := none, nspQueue := d.svc.nspQueue.filter (fun e => decide (e.1 ≠ .port)) } } else d

/-- No earlier service request waits: a new one is taken up as soon as it has what it takes of the concourse (R256, R374). -/
abbrev NspFree (d : Device) (o : Sys2Proof.NspFrom) : Prop := d.svc.waiting = none ∧ (heardFrom d o).svc.nspQueue = []

/-- The device in which the housekeeper takes up a service request, with the banks of a list its for the asking (R242, R256). -/
def takenUp (d : Device) (o : Sys2Proof.NspFrom) (rs : List ResNo) : Device := useAll (heardFrom d o) houseReq .nsp rs

/-- A service request whose bank is not to be had waits, and all but the concourse is as the request leaves it on arrival. -/
def NspWaits (d : Device) (o : Sys2Proof.NspFrom) (e : Sys2Proof.NspFrom × BitVec 16 × Sys2Proof.Byte × Sys2Proof.NspReq) (rs : List ResNo)
    (t : Device) : Prop :=
  t.svc.nspQueue = [e] ∧ (⟨houseReq, .nsp, rs⟩ : ConWait) ∈ t.con.waits ∧
  OnlyBanks (heardFrom d o) { t with svc := (heardFrom d o).svc }

/-- What an image's CHANNEL_SET, MEMORY_PLAN, LINE_SET and SLEEP_PLAN write into the registers of channel n, but for line_req (R348 to
R350, R355); those of the sentinel with VAON present (R395). -/
def Placed (ss : List Section) (n : ChanNo) (t : Device) : Prop :=
  let cs := bodyOf ss 1 (n.val / 8 + 1)
  let mp := bodyOf ss 3 (n.val / 8 + 1)
  let ls := bodyOf ss 2 (n.val / 8 + 1)
  let o := 16 * (n.val % 8)
  let p := 32 * (n.val % 8)
  (chan t n).fe.role = roleOf (b1 cs o) ∧ (chan t n).fe.feCfg = BitVec.ofNat 3 (b1 cs (o + 1)) ∧
  (chan t n).fe.nbt = bw cs (o + 4) ∧ (chan t n).fe.dbt = bw cs (o + 8) ∧
  (chan t n).jn.base = some (b4 mp o) ∧ (chan t n).jn.cap = BitVec.ofNat 19 (b4 mp (o + 4)) ∧
  (chan t n).lq.base = some (b4 mp (o + 8)) ∧
  (t.glb.vaonUp = true → (chan t n).line.confirmMs = BitVec.ofNat 9 (b2 ls (p + 2)) ∧
    (chan t n).wake.set.cfg = bw ls (p + 4) ∧ (chan t n).wake.fwCfg = bw ls (p + 24))

/-- The commands of the lattice die: all but those of the sentinels, of the recognisers, of VIO_B, RST_N and the resets' own. -/
def ofTheLattice (c : Sys2Proof.Instr) : Bool :=
  match c with
  | .lineTransitionComplete _ => false
  | .wupRecognised _ _ => false
  | .wufRecognised _ _ _ => false
  | .wufErrcnt _ _ => false
  | .wakeNRecognised _ => false
  | .wakeNReturnHigh => false
  | .tConfirmExpiry _ => false
  | .tOrphanExpiry _ => false
  | .vlineUndervoltage _ => false
  | .vlineRestored _ => false
  | .overTemperature _ => false
  | .overTemperatureClear _ => false
  | .dominantTimeout _ => false
  | .domHoldRelease _ => false
  | .biasRelease _ => false
  | .decodingTraffic _ => false
  | .vaonPorAssert => false
  | .vaonPorRelease => false
  | .vioBLow => false
  | .vioBRestored => false
  | .latticePorAssert => false
  | .rstNAssert => false
  | .latticeResetRelease _ _ => false
  | .wakeValidExpiry _ _ => false
  | .decoderFrameEnd _ _ => false
  | _ => true

end Sys2Proof.Stated

open Sys2Proof Sys2Proof.Machine Sys2Proof.Stated


/-- For every command c and every device and rest of the queue, the step of the state with c in front is exec of c at
the state with the rest as its queue. The queue is the model's own way of taking commands one after another. With an
empty queue a step answers a next state: with the lattice die out of reset, no increment on its way, no side sending
SPAN_DOWN and no start-up under way the raw counter is one more, modulo 2^64, and nothing else changes; with an
increment on its way the step is INCREMENT_APPLY; a start-up goes one step on, from CODE to LEDGER, and from LEDGER to
IMAGE with the ledger loaded and the station number taken; in reset nothing changes. That a T edge is what an idle step
does is the model's choice, log entry 3; that the start-up's steps 2 to 4 take one each is log entry 140. -/
def Obligations.StepTakesTheFrontCommand : Prop :=
  (∀ (c : Sys2Proof.Instr) (d : Device) (r : List Sys2Proof.Instr), step ⟨d, c :: r⟩ = exec c ⟨d, r⟩) ∧
  (∀ d : Device,
    let e := { d with tim := { d.tim with raw := d.tim.raw + 1 } }
    let still := d.tim.incs = [] ∧ d.ring.east.spanDownTx = false ∧ d.ring.west.spanDownTx = false
    (d.glb.latUp = true → d.glb.boot = none → still → step ⟨d, []⟩ = .next ⟨e, []⟩) ∧
    (d.glb.latUp = true → d.glb.boot = none → d.tim.incs ≠ [] → step ⟨d, []⟩ = exec .incrementApply ⟨d, []⟩) ∧
    (∀ x, d.glb.latUp = true → d.glb.boot = some x → still →
      (d.glb.phase = 1 → step ⟨d, []⟩ = .next ⟨{ e with glb := { e.glb with phase := 2 } }, []⟩) ∧
      (∀ t, d.glb.phase = 2 → ledgerStep e (imageSections (slotImage e x.slot)) = some t →
        step ⟨d, []⟩ = .next ⟨takeStation { t with glb := { t.glb with phase := 3 } }, []⟩)) ∧
    (d.glb.latUp = false → step ⟨d, []⟩ = .next ⟨d, []⟩))

/-- Whatever command runs, a next state has the queue it was given: every effect is on the device. A command whose
operands can occur answers a next state in every state, also where its condition does not hold (the model's choice, log
2); no command is refused, and the one fault is RX_FRAME_VALID's with a frame whose data bytes do not number what its
DLC says (the model's choice, log 87). RX_FRAME_VALID with such a frame faults in every state under the name
illFormedFrame: no bus carries it. That it faults is the model's choice, log entry 87. -/
def Obligations.CommandsCompleteAndKeepTheQueue : Prop :=
  (∀ (c : Sys2Proof.Instr) (s t : State), exec c s = .next t → t.pending = s.pending) ∧
  (∀ (c : Sys2Proof.Instr) (s : State),
    (Sys2Proof.WellFormed c = true → ∃ t, exec c s = .next t) ∧
    (∀ r, exec c s ≠ .refused r) ∧
    (∀ e, exec c s = .fault e → ∃ n f, c = .rxFrameValid n f ∧ f.data.length ≠ frameLen f)) ∧
  (∀ (n : ChanNo) (f : Sys2Proof.Frame) (s : State), f.data.length ≠ frameLen f →
    exec (.rxFrameValid n f) s = .fault .illFormedFrame)

/-- Where the stores of the device are in their one canonical form (keys rising, no entry equal to what an unlisted key
reads as) and a step answers a next state, they are in it again, so that equal contents are equal data. -/
def Obligations.StoresStayCanonical : Prop :=
  ∀ s t : State, storesWf s.dev = true → step s = .next t → storesWf t.dev = true

/-- At reset every channel is OFF with role OFF, fault confinement error-active and counters 0, bit timing 0x078F3E01
and 0x003D11A1; the raw counter is 0 with rate 0x0640_0000_0000; every lock is free with its mark set; every engine is
STOPPED; the lanes are DOWN with TX_DISABLE asserted; the reset cause reads 0x03; no command waits. State.reset has the
SRAM and the flash in canonical form, with nothing listed. -/
def Obligations.ResetStateAndStores : Prop :=
  ((∀ n : ChanNo, let c := chan State.reset.dev n
    c.fe.role = .off ∧ c.line.state = .off ∧ c.line.token = false ∧ c.fe.fcState = .active ∧ c.fe.tec = 0 ∧ c.fe.recv = 0 ∧
    c.fe.nbt = 0x078F3E01#32 ∧ c.fe.dbt = 0x003D11A1#32 ∧ c.line.confirmMs = 0x064#9 ∧ c.line.rxdly = 0x09#5) ∧
  State.reset.dev.tim.raw = 0 ∧ State.reset.dev.tim.rate = 0x064000000000#48 ∧
  (∀ i : LockNo, tabGet ({} : Lock) State.reset.dev.locks i.val = {}) ∧
  (∀ k : EngNo, State.reset.dev.eng[k].st = .stopped) ∧
  (∀ p : Sys2Proof.Port, (port State.reset.dev p).st = .down ∧ (port State.reset.dev p).txDisable = true) ∧
  State.reset.dev.glb.rstCause = 0x03#6 ∧ State.reset.pending = []) ∧
  (storesWf State.reset.dev = true ∧ State.reset.dev.sram.bytes = [] ∧ State.reset.dev.flash.bytes = [])

/-- A tempo measurement is held and valid, the peak is the larger of the two, slow_seen is set above 1 508 ps; a peak
clear makes the peak 0; ECON entry sets econ and econ_seen, its exit clears econ alone. Nothing else changes. Under
these conditions on state and operands alone exec answers the next state described, for .tempoMeasurement, .peakClear,
.vcoreEconEnter, .vcoreEconExit. -/
def Obligations.LatticeMeasurements : Prop :=
  ∀ s : State, Up s →
    (∀ ps : BitVec 16, RunsTo (.tempoMeasurement ps) s { s.dev with lat := { s.dev.lat with
      tempo := ps, tempoValid := true, peak := if s.dev.lat.peak < ps then ps else s.dev.lat.peak
      slowSeen := s.dev.lat.slowSeen || decide (1508 < ps.toNat) } }) ∧
    RunsTo .peakClear s { s.dev with lat := { s.dev.lat with peak := 0 } } ∧
    RunsTo .vcoreEconEnter s { s.dev with lat := { s.dev.lat with econ := true, econSeen := true } } ∧
    RunsTo .vcoreEconExit s { s.dev with lat := { s.dev.lat with econ := false } }

/-- With a role that allows it and VAON present, LINE_REQ_OFF, _SLEEP, _NORMAL and _LISTEN leave line_req and the line
state at what is asked for and line_req written; with the line elsewhere the transition is in progress, and no other
channel changes. OFF is allowed in every role, NORMAL in HEAD and MEMBER, SLEEP and LISTEN in every role but OFF (R44).
In role OFF the requests for SLEEP, NORMAL and LISTEN, and in role LISTEN the request for NORMAL, set role_refused (bit
6) in CHn_LINE_EVT and nothing else: line_req and the state stay (R44). With VAON present term_en may be set in role
HEAD and cleared in any role, and local_wake_en is held; a calibration starts with the line OFF and none running, and
its end in OFF makes it valid with its result. Nothing but the named register changes. Under these conditions on state
and operands alone exec answers the next state described, for .lineReqOff, .lineReqSleep, .lineReqNormal,
.lineReqListen, .termEnWrite, .localWakeEnWrite, .lineCalStart, .lineCalDone. -/
def Obligations.LineRequestsByRole : Prop :=
  (∀ (s : State) (n : ChanNo), Up s → Vaon s →
    let taken := fun (q : LineSt) (t : Device) =>
      (chan t n).line.req = q ∧ (chan t n).line.state = q ∧ (chan t n).line.reqWritten = true ∧
      ((chan s.dev n).line.state ≠ q → (chan t n).line.moving = true ∧ (chan t n).line.rxReady = false) ∧ OnlyChan n s.dev t
    Runs (.lineReqOff n) s (taken .off) ∧
    ((chan s.dev n).fe.role ≠ .off → Runs (.lineReqSleep n) s (taken .sleep) ∧ Runs (.lineReqListen n) s (taken .listen)) ∧
    ((chan s.dev n).fe.role ≠ .off → (chan s.dev n).fe.role ≠ .listen → Runs (.lineReqNormal n) s (taken .normal))) ∧
  (∀ (s : State) (n : ChanNo), Up s →
    let bad := onLine s.dev n (fun l => { l with evt := setBit l.evt 6 })
    ((chan s.dev n).fe.role = .off →
      RunsTo (.lineReqSleep n) s bad ∧ RunsTo (.lineReqNormal n) s bad ∧ RunsTo (.lineReqListen n) s bad) ∧
    ((chan s.dev n).fe.role = .listen → RunsTo (.lineReqNormal n) s bad)) ∧
  (∀ (s : State) (n : ChanNo), Up s →
    (∀ v : Bool, Vaon s → (v = false ∨ (chan s.dev n).fe.role = .head) →
      RunsTo (.termEnWrite n v) s (onLine s.dev n (fun l => { l with termEn := v }))) ∧
    (Vaon s → (chan s.dev n).fe.role ≠ .head →
      RunsTo (.termEnWrite n true) s (onLine s.dev n (fun l => { l with evt := setBit l.evt 6 }))) ∧
    (∀ v : Bool, Vaon s → RunsTo (.localWakeEnWrite n v) s (onLine s.dev n (fun l => { l with localWake := v }))) ∧
    ((chan s.dev n).line.calBusy = false → (chan s.dev n).line.state = .off →
      RunsTo (.lineCalStart n) s (onLine s.dev n (fun l => { l with calBusy := true }))) ∧
    ((chan s.dev n).line.calBusy = false → (chan s.dev n).line.state ≠ .off →
      RunsTo (.lineCalStart n) s (onLine s.dev n (fun l => { l with evt := setBit l.evt 7 }))) ∧
    (∀ r : BitVec 12, (chan s.dev n).line.calBusy = true → (chan s.dev n).line.state = .off →
      RunsTo (.lineCalDone n r) s (onLine s.dev n (fun l => { l with calBusy := false, calValid := true, calResult := r }))))

/-- The end of a transition clears moving and shows rx_ready outside OFF and SLEEP, and with the standby request in
force and every channel of the die in SLEEP or OFF the sentinel withdraws INH. A dominant timeout on an open drive gate
sets dom_hold and dom_to and appends its bus-state entry, its release clears dom_hold. A bus edge at an armed sleeping
channel starts decoding with bias, 1.0 s of silence ends both. Under these conditions on state and operands alone exec
answers the next state described, for .lineTransitionComplete, .dominantTimeout, .domHoldRelease, .biasRelease,
.decodingTraffic. -/
def Obligations.LineConditions : Prop :=
  ∀ (s : State) (n : ChanNo), Vaon s →
    ((chan s.dev n).line.moving = true → Runs (.lineTransitionComplete n) s fun t =>
      (chan t n).line = { (chan s.dev n).line with
        moving := false
        rxReady := decide ((chan s.dev n).line.state ≠ .off) && decide ((chan s.dev n).line.state ≠ .sleep) } ∧
      (s.dev.glb.stby = true →
        (∀ m : ChanNo, dieOf m = dieOf n → (chan s.dev m).line.state = .sleep ∨ (chan s.dev m).line.state = .off) →
        t.sent = (onSent s.dev (dieOf n) (fun x => { x with inhReq := false })).sent) ∧
      ((s.dev.glb.stby = false ∨ ∃ m : ChanNo, dieOf m = dieOf n ∧ (chan s.dev m).line.state ≠ .sleep ∧
        (chan s.dev m).line.state ≠ .off) → t.sent = s.dev.sent) ∧
      OnlyChan n s.dev { t with sent := s.dev.sent }) ∧
    (drvOn s.dev n = true → Runs (.dominantTimeout n) s fun t =>
      (chan t n).line = { (chan s.dev n).line with domHold := true, evt := setBit (chan s.dev n).line.evt 0 } ∧
      Notes n (busStateNow s.dev 2 0) s.dev t ∧ OnlyChan n s.dev t) ∧
    RunsTo (.domHoldRelease n) s (onLine s.dev n (fun l => { l with domHold := false })) ∧
    ((chan s.dev n).line.state = .sleep → (chan s.dev n).wake.armed = true → RunsTo (.decodingTraffic n) s
      (onLine (onWake s.dev n (fun w => { w with decoding := true })) n (fun l => { l with bias := true }))) ∧
    ((chan s.dev n).line.state = .sleep → (chan s.dev n).wake.decoding = true → RunsTo (.biasRelease n) s
      (onLine (onWake s.dev n (fun w => { w with decoding := false })) n (fun l => { l with bias := false })))

/-- The expiry of t_CONFIRM takes a channel in STANDBY to SLEEP with confirm_expired. The expiry of t_ORPHAN of die k
clears hb_ok and takes every channel of the die in NORMAL or LISTEN to SLEEP, its token cleared and orphaned set;
channels of the die in other states and channels of other dies are unchanged. Undervoltage clears vline_ok and takes the
channels of the die in STANDBY, NORMAL or LISTEN to SLEEP with vline_uv, the rest unchanged; its end sets vline_ok
alone. Over-temperature sets ot and ot_seen of all channels of the die, no state changes; its end clears ot alone. A
heartbeat, sent while the resident code runs, sets hb_ok and no channel changes. Under these conditions on state and
operands alone exec answers the next state described, for .tConfirmExpiry, .tOrphanExpiry, .sentinelHeartbeat,
.vlineUndervoltage, .vlineRestored, .overTemperature, .overTemperatureClear. -/
def Obligations.SentinelTimersSupplyAndHeat : Prop :=
  (∀ s : State, Vaon s →
    (∀ n : ChanNo, (chan s.dev n).line.state = .standby → Runs (.tConfirmExpiry n) s fun t =>
      (chan t n).line.state = .sleep ∧ (chan t n).line.req = .sleep ∧
      (chan t n).line.evt = setBit (chan s.dev n).line.evt 1 ∧ OnlyChan n s.dev t) ∧
    (∀ k : DieNo, Runs (.tOrphanExpiry k) s fun t =>
      (∀ n : ChanNo, dieOf n = k → ((chan s.dev n).line.state = .normal ∨ (chan s.dev n).line.state = .listen) →
        (chan t n).line.state = .sleep ∧ (chan t n).line.req = .sleep ∧ (chan t n).line.token = false ∧
        (chan t n).line.evt = setBit (chan s.dev n).line.evt 3) ∧
      (∀ n : ChanNo, dieOf n = k → (chan s.dev n).line.state ≠ .normal → (chan s.dev n).line.state ≠ .listen →
        chan t n = chan s.dev n) ∧
      OnlyChans (dieChans k) (onSent s.dev k (fun x => { x with hbOk := false })) t)) ∧
  (∀ (s : State) (k : DieNo),
    (Vaon s → Runs (.vlineUndervoltage k) s fun t =>
      (∀ n : ChanNo, dieOf n = k → (chan s.dev n).line.state ≠ .sleep → (chan s.dev n).line.state ≠ .off →
        (chan t n).line.state = .sleep ∧ (chan t n).line.req = .sleep ∧
        (chan t n).line.evt = setBit (chan s.dev n).line.evt 4) ∧
      (∀ n : ChanNo, dieOf n = k → ((chan s.dev n).line.state = .sleep ∨ (chan s.dev n).line.state = .off) →
        chan t n = chan s.dev n) ∧
      OnlyChans (dieChans k) (onSent s.dev k (fun x => { x with vlineOk := false })) t) ∧
    (Vaon s → RunsTo (.vlineRestored k) s (onSent s.dev k (fun x => { x with vlineOk := true }))) ∧
    (Vaon s → Runs (.overTemperature k) s fun t =>
      (∀ n : ChanNo, dieOf n = k → chan t n = { chan s.dev n with
        line := { (chan s.dev n).line with evt := setBit (chan s.dev n).line.evt 5 } }) ∧
      OnlyChans (dieChans k) (onSent s.dev k (fun x => { x with ot := true })) t) ∧
    (Vaon s → RunsTo (.overTemperatureClear k) s (onSent s.dev k (fun x => { x with ot := false }))) ∧
    (Up s → s.dev.svc.recovery = false → RunsTo (.sentinelHeartbeat k) s (onSent s.dev k (fun x => { x with hbOk := true }))))

/-- A wake-up pattern, a wake-up frame that matches in IDE, masked identifier, DLC and masked data, and the decoder's
error count of 32 at an armed recogniser that has them enabled record their source, request INH at the die's sentinel,
and take a channel in SLEEP to STANDBY; in another state the channel's state stays. A standby request in force is
cleared, with stby_aborted while INH is high. A wake-up pattern that comes in its tick after a line_req out of SLEEP,
which is within 1 ms of it (inferred, log 138), or after another wake moves nothing (R47): it is never one to be
confirmed, and its LINE_STATE entry has equal states (R132). A recognition with WAKE_N not yet recognised in this low
period requests INH and sets wake_n_seen at every sentinel and takes to STANDBY the channels in SLEEP with
local_wake_en; the others, but for those that a line_req or another wake took out of SLEEP in the same tick (log 138),
are unchanged; within the same low period a second one changes nothing; its return high allows the next. Under these
conditions on state and operands alone exec answers the next state described, for .wupRecognised, .wufRecognised,
.wufErrcnt, .wakeNRecognised, .wakeNReturnHigh. -/
def Obligations.WakesAndLocalWake : Prop :=
  ((∀ (s : State) (n : ChanNo) (tick : Nat), Vaon s → lateWake s.dev n tick = true → (chan s.dev n).wake.use.cfg.getLsbD 0 = true →
    (chan s.dev n).wake.set.cfg.getLsbD 2 = false → Runs (.wupRecognised n tick) s fun t =>
      (chan t n).line = (chan s.dev n).line ∧ (chan t n).slp = (chan s.dev n).slp ∧ (chan t n).wake.lastSource = 1 ∧
      (chan t n).wake.confirming = (chan s.dev n).wake.confirming ∧ t.sent[dieOf n].inhReq = true ∧
      (journalOn s.dev n = true → stagedWords (chan s.dev n).jn + 9 ≤ 24 → let st := lineCode (chan s.dev n).line.state
        (chan t n).jn = { (chan s.dev n).jn with staging := (chan s.dev n).jn.staging ++
          [.whole (plainWords s.dev.tim.raw s.dev.tim.gen 4 (pack [(0, 4), (8, 1)]) []) none,
            .whole (busStateNow s.dev 1 (pack [(0, st), (4, st), (8, 1)])) none] })) ∧
  ∀ (s : State) (n : ChanNo) (tick : Nat), Vaon s → (chan s.dev n).wake.armed = true →
    let woken := fun (source : BitVec 3) (t : Device) =>
      (chan t n).wake.lastSource = source ∧ (chan t n).wake.evt = setBit (chan s.dev n).wake.evt 2 ∧
      (chan t n).wake.confirming = (chan s.dev n).wake.confirming ++ (if source = 1 then [tick] else []) ∧ t.sent[dieOf n].inhReq = true ∧
      ((chan s.dev n).line.state = .sleep → (chan t n).line.state = .standby ∧ (chan t n).line.req = .sleep) ∧
      ((chan s.dev n).line.state ≠ .sleep → (chan t n).line = (chan s.dev n).line) ∧
      t.glb.stby = false ∧
      t.glb.stbyAborted = (s.dev.glb.stbyAborted || (s.dev.glb.stby && inhHigh s.dev)) ∧
      OnlyChan n (onSent { s.dev with glb := { s.dev.glb with stby := false, stbyAborted := t.glb.stbyAborted } } (dieOf n)
        (fun x => { x with inhReq := true })) t
    ((chan s.dev n).wake.use.cfg.getLsbD 0 = true → (chan s.dev n).wake.set.cfg.getLsbD 2 = false →
      Runs (.wupRecognised n tick) s (woken 1)) ∧
    (∀ f : Sys2Proof.Frame, let w := (chan s.dev n).wake.use
      w.cfg.getLsbD 1 = true → f.fdf = false → f.rtr = false → f.ide = w.cfg.getLsbD 6 →
      (f.ident ^^^ w.id) &&& w.idMask = 0 → f.dlc.toNat = fld w.cfg 16 4 →
      (f.dlc = 0 ∨ w.dmask = 0 ∨ ∃ b : Fin 64, w.dmask.getLsbD b.val = true ∧
        ((fitTo 8 f.data).getD (b.val / 8) 0).getLsbD (b.val % 8) = true) →
      Runs (.wufRecognised n tick f) s (woken 2)) ∧
    ((chan s.dev n).wake.use.cfg.getLsbD 1 = true → (chan s.dev n).wake.errCnt = 32 →
      Runs (.wufErrcnt n tick) s (woken 3))) ∧
  (∀ (s : State) (tick : Nat), Vaon s →
    (s.dev.glb.wakeNLow = false → Runs (.wakeNRecognised tick) s fun t =>
      t.glb.wakeNLow = true ∧
      (∀ k : DieNo, t.sent[k] = { s.dev.sent[k] with inhReq := true, wakeNSeen := true }) ∧
      (∀ n : ChanNo, (chan s.dev n).line.state = .sleep → (chan s.dev n).line.localWake = true →
        (chan t n).line.state = .standby ∧ (chan t n).line.req = .sleep ∧ (chan t n).wake.lastSource = 4) ∧
      (∀ n : ChanNo, (((chan s.dev n).line.state ≠ .sleep ∧ lateWake s.dev n tick = false) ∨ (chan s.dev n).line.localWake = false) →
        chan t n = chan s.dev n) ∧
      (∀ n : ChanNo, (chan s.dev n).line.state ≠ .sleep → (chan t n).line = (chan s.dev n).line)) ∧
    (s.dev.glb.wakeNLow = true → RunsTo (.wakeNRecognised tick) s s.dev) ∧
    RunsTo .wakeNReturnHigh s { s.dev with glb := { s.dev.glb with wakeNLow := false } })

/-- When t_WAKE_VALID of the oldest pending wake runs out unconfirmed the false wake is counted, saturating at 255 with
its SAT bit, and its tick kept; with fw_limit not 0 and that many within fw_window the mode becomes FRAME_ONLY and
fw_switched is set, otherwise the mode stays. A host write of another wake_mode, with VAON present, sets it,
PATTERN_AND_FRAME clearing the window. At an armed decoder with wake frames enabled a valid frame confirms every pending
wake and lowers the error counter by one, not below 0, and a frame with an error raises it by one, not above 32. Nothing
else changes. Under these conditions on state and operands alone exec answers the next state described, for
.wakeValidExpiry, .wakeModeWrite, .decoderFrameEnd. -/
def Obligations.FalseWakesAndDecoderErrors : Prop :=
  (∀ (s : State) (n : ChanNo) (tick : Nat),
    let w := (chan s.dev n).wake
    let times := (tick :: w.fwTimes).take 15
    let due := fld w.fwCfg 12 4 ≠ 0 ∧ w.set.cfg.getLsbD 2 = false ∧
      fld w.fwCfg 12 4 ≤ (times.filter (fun x => decide (tick - x ≤ fld w.fwCfg 16 10 * 1000))).length
    (Vaon s → w.confirming ≠ [] → Runs (.wakeValidExpiry n tick) s fun t =>
      (chan t n).wake.confirming = w.confirming.tail ∧ (chan t n).wake.fwTimes = times ∧
      (chan t n).wake.fwCount = (if w.fwCount = 255 then 255 else w.fwCount + 1) ∧
      (chan t n).wake.fwSat = (w.fwSat || decide (w.fwCount = 255)) ∧
      (due → (chan t n).wake.set.cfg.getLsbD 2 = true ∧ (chan t n).wake.evt = setBit w.evt 0) ∧
      (¬ due → (chan t n).wake.set = w.set ∧ (chan t n).wake.evt = w.evt) ∧
      (chan t n).line = (chan s.dev n).line ∧ OnlyChan n s.dev t) ∧
    (∀ v : Bool, Up s → Vaon s → w.set.cfg.getLsbD 2 ≠ v → Runs (.wakeModeWrite n v) s fun t =>
      (chan t n).wake = { w with
        set := { w.set with cfg := putBit w.set.cfg 2 v }, fwTimes := if v then w.fwTimes else [] } ∧
      (chan t n).line = (chan s.dev n).line ∧ OnlyChan n s.dev t)) ∧
  (∀ (s : State) (n : ChanNo), Vaon s → (chan s.dev n).wake.use.cfg.getLsbD 1 = true → (chan s.dev n).wake.armed = true →
    RunsTo (.decoderFrameEnd n true) s (onWake s.dev n (fun w => { w with
      confirming := [], errCnt := if w.errCnt = 0 then 0 else w.errCnt - 1 })) ∧
    RunsTo (.decoderFrameEnd n false) s (onWake s.dev n (fun w => { w with
      errCnt := if w.errCnt.toNat < 32 then w.errCnt + 1 else w.errCnt })))

/-- When VAON falls every channel is OFF without token, termination or bias, every sentinel has its reset value with INH
released, and no standby request is left; when it returns every sentinel has its reset value and requests INH and the
reset cause is power-up. With VIO_B low the pins of bank B read 0 from there on (that their levels fall then is the
model's choice, log 154), its return clears the flag alone. The SRAM, the flash and the tag area are unchanged. While
VAON is absent a line request of the lattice is held and moves no line, and writes of term_en, local_wake_en and
wake_mode change nothing: the sentinel takes none of them. Under these conditions on state and operands alone exec
answers the next state described, for .lineReqOff, .lineReqSleep, .lineReqNormal, .lineReqListen, .termEnWrite,
.localWakeEnWrite, .vaonPorRelease, .vaonPorAssert, .wakeModeWrite, .vioBLow, .vioBRestored. -/
def Obligations.AlwaysOnPower : Prop :=
  (∀ s : State, Vaon s → Runs .vaonPorAssert s fun t =>
    t.glb.vaonUp = false ∧ t.glb.stby = false ∧ t.glb.wakeNLow = false ∧
    (∀ k : DieNo, t.sent[k] = { ({} : Sentinel) with inhReq := false }) ∧
    (∀ n : ChanNo, (chan t n).line.state = .off ∧ (chan t n).line.token = false ∧ (chan t n).line.termEn = false ∧
      (chan t n).line.bias = false ∧ (chan t n).line.req = (chan s.dev n).line.req ∧
      (chan t n).line.rxdly = (chan s.dev n).line.rxdly ∧ (chan t n).wake.armed = false ∧ (chan t n).wake.fwCount = 0) ∧
    t.sram = s.dev.sram ∧ t.flash = s.dev.flash ∧ t.tag = s.dev.tag ∧ t.tim = s.dev.tim ∧ t.eng = s.dev.eng) ∧
  (∀ s : State, s.dev.glb.vaonUp = false → RunsTo .vaonPorRelease s { s.dev with
    sent := Vector.replicate 4 {}
    glb := { s.dev.glb with vaonUp := true, stby := false, stbyAborted := false, rstCause := 1 } }) ∧
  (∀ s : State, (Runs .vioBLow s fun t => t.glb = { s.dev.glb with vioBLow := true } ∧
      (∀ p : PinNo, 64 ≤ p.val → (pinAt t p).level = false) ∧ (∀ p : PinNo, p.val < 64 → pinAt t p = pinAt s.dev p) ∧
      { t with glb := s.dev.glb, pin := s.dev.pin } = s.dev) ∧
    RunsTo .vioBRestored s { s.dev with glb := { s.dev.glb with vioBLow := false } }) ∧
  (∀ (s : State) (n : ChanNo), Up s → s.dev.glb.vaonUp = false →
    (∀ v : Bool, RunsTo (.termEnWrite n v) s s.dev ∧ RunsTo (.localWakeEnWrite n v) s s.dev ∧ RunsTo (.wakeModeWrite n v) s s.dev) ∧
    let held := fun (q : LineSt) (t : Device) =>
      (∃ e, (chan t n).line = { (chan s.dev n).line with req := q, reqWritten := true, evt := e }) ∧ OnlyChan n s.dev t
    Runs (.lineReqOff n) s (held .off) ∧
    ((chan s.dev n).fe.role ≠ .off → Runs (.lineReqSleep n) s (held .sleep) ∧ Runs (.lineReqListen n) s (held .listen) ∧
      ((chan s.dev n).fe.role ≠ .listen → Runs (.lineReqNormal n) s (held .normal))))

/-- Another node's SOF at an integrated idle channel, its line not in a transition, starts a reception with the stamp,
the raw counter less rxdly_ticks, and its generation. The channel's own SOF, with the bank of its fetch free, puts the
entry on offer, fetched anew, ON_BUS with that stamp, an entry already sent leaves ON_BUS, the channel transmits its
frame with the en-passant bytes in place, and the measured loop delay of an FD frame with BRS is held. With the bank not
free the opportunity is missed (R274); during a transition no SOF takes effect (R48). That an entry already sent reads
READY while its TX_ECHO entry is owed is inferred (log 103), and the transmitted bits are ISO 11898-1's (presumed, log
90). The channel goes on as receiver of the frame; its ON_BUS entry is READY again with its attributes unchanged, or
with a cancel latched has its outcome: FREE, or waiting for its TX_ECHO entry. No counter moves. Under these conditions
on state and operands alone exec answers the next state described, for .sofOnBus, .arbitrationLost, .rxFrameSof. -/
def Obligations.StartOfFrameAndLostArbitration : Prop :=
  (∀ (s : State) (n : ChanNo), Up s → (chan s.dev n).fe.integrated = true → (chan s.dev n).fe.activity = .none →
    let still := (chan s.dev n).line.moving = false
    let stamp := s.dev.tim.raw - (chan s.dev n).line.rxdly.setWidth 64
    (still → modeOf s.dev n ≠ .idle → RunsTo (.rxFrameSof n) s (onFe s.dev n (fun f => { f with
      activity := .receiving, monitored := decide (modeOf s.dev n ≠ .driving) || (f.monitored && !idleBus f), busIdle := false
      intermission := false, asTx := false
      stamp := stamp, gen := s.dev.tim.gen, sofRaw := s.dev.tim.raw }))) ∧
    (¬ still → RunsTo (.rxFrameSof n) s s.dev ∧ ∀ loop : Option (BitVec 7), RunsTo (.sofOnBus n loop) s s.dev) ∧
    (∀ (i : LqIdx) (loop : Option (BitVec 7)), still → lqOffered s.dev n = some i → modeOf s.dev n = .driving →
      noSelect s.dev n = false → ((chan s.dev n).fe.monitored = false ∨ idleBus (chan s.dev n).fe = true) →
      let frame := stampedFrame (lqRefetch s.dev n i) n i stamp s.dev.tim.gen
      (¬ BankFree s.dev (qChan n, .queue) (lqPlace s.dev n i 0) → Runs (.sofOnBus n loop) s fun t =>
        { t with con := s.dev.con } = s.dev ∧ ∀ r : ResNo, (arbOf t r).owner = (arbOf s.dev r).owner) ∧
      (BankFree s.dev (qChan n, .queue) (lqPlace s.dev n i 0) → Runs (.sofOnBus n loop) s fun t =>
        lqEnt t n i = { lqEnt s.dev n i with st := .onBus, words := lqFetched s.dev n i } ∧
        (∀ j : LqIdx, j ≠ i → lqEnt t n j = if (lqEnt s.dev n j).closing = true ∧ (lqEnt s.dev n j).st = .onBus
          then { lqEnt s.dev n j with st := .ready } else lqEnt s.dev n j) ∧
        (chan t n).fe.activity = .transmitting ∧ (chan t n).fe.asTx = true ∧ (chan t n).fe.busIdle = false ∧
        (chan t n).fe.stamp = stamp ∧ (chan t n).fe.gen = s.dev.tim.gen ∧ (chan t n).fe.sofRaw = s.dev.tim.raw ∧
        (chan t n).fe.txFrame = some frame ∧ (chan t n).fe.txBits = frameBits frame ∧
        (chan t n).fe.suspended = ((chan s.dev n).fe.asTx && decide ((chan s.dev n).fe.fcState = .passive)) ∧
        (∀ k, loop = some k → frame.fdf = true → frame.brs = true → (chan s.dev n).fe.cfgUse.getLsbD 2 = true →
          (chan t n).fe.tdcMeas = k.setWidth 8 ∧ (chan t n).fe.tdcValid = true) ∧
        (chan t n).jn = (chan s.dev n).jn ∧ (chan t n).line = (chan s.dev n).line ∧
        (chan t n).slp = { (chan s.dev n).slp with
          holdUntil := if i = ballotIdx s.dev n then none else (chan s.dev n).slp.holdUntil } ∧
        (∀ r : ResNo, r ≠ bankOf (lqPlace s.dev n i 0) → arbOf t r = arbOf s.dev r) ∧
        OnlyChan n (noBanks s.dev) (noBanks t)))) ∧
  (∀ (s : State) (n : ChanNo), Up s → (chan s.dev n).fe.activity = .transmitting → Runs (.arbitrationLost n) s fun t =>
    (chan t n).fe = { (chan s.dev n).fe with activity := .receiving, asTx := false, txFrame := none, txBits := [] } ∧
    (∀ i, lqOnBus s.dev n = some i → (lqEnt s.dev n i).cancel = false →
      lqEnt t n i = { lqEnt s.dev n i with st := .ready }) ∧
    (∀ i, lqOnBus s.dev n = some i → (lqEnt s.dev n i).cancel = true →
      (lqEnt t n i).st = .free ∨ (lqEnt t n i).closing = true) ∧
    (chan t n).line = (chan s.dev n).line ∧ OnlyChan n s.dev t)

/-- No frame is in progress, and the bus is idle after the intermission. A frame received, an FD frame only with fd_en
in use, confirms every pending wake. As receiver in driving mode REC goes down by one, from above 127 to 127, and TEC
stays; in monitoring mode no counter moves. As transmitter TEC goes down by one and the ON_BUS entry has its outcome:
FREE, or waiting for its TX_ECHO entry; a ballot's window and descent count from the edge that ends the seventh EOF bit
(inferred, log 104). The steps of TEC and REC are ISO 11898-1's (presumed, log 11). Bytes outside the channel's journal
and queue read as before, and all else but the concourse, whose bank a HOLD in answer to an offer takes. Under these
conditions on state and operands alone exec answers the next state described, for .rxFrameValid, .txFrameValid. -/
def Obligations.FrameValid : Prop :=
  (∀ (s : State) (n : ChanNo) (f : Sys2Proof.Frame), Up s → f.data.length = frameLen f →
    (chan s.dev n).fe.activity = .receiving → modeOf s.dev n ≠ .idle →
    (f.fdf = true → (chan s.dev n).fe.cfgUse.getLsbD 0 = false → RunsTo (.rxFrameValid n f) s s.dev) ∧
    ((f.fdf = false ∨ (chan s.dev n).fe.cfgUse.getLsbD 0 = true) → Runs (.rxFrameValid n f) s fun t =>
      (chan t n).fe.activity = .none ∧ (chan t n).fe.busIdle = false ∧ (chan t n).fe.intermission = true ∧
      (chan t n).fe.tec = (chan s.dev n).fe.tec ∧ (chan t n).fe.monitored = (chan s.dev n).fe.monitored ∧ (chan t n).wake.confirming = [] ∧
      (modeOf s.dev n = .driving → (chan s.dev n).fe.monitored = false → (chan t n).fe.recv = recGood (chan s.dev n).fe.recv) ∧
      ((modeOf s.dev n ≠ .driving ∨ (chan s.dev n).fe.monitored = true) → (chan t n).fe.recv = (chan s.dev n).fe.recv) ∧
      (chan t n).line = (chan s.dev n).line ∧ OnlyChanStored n (noBanks s.dev) (noBanks t))) ∧
  (∀ (s : State) (n : ChanNo) (i : LqIdx) (f : Sys2Proof.Frame), Up s → lqOnBus s.dev n = some i →
    (chan s.dev n).fe.txFrame = some f → (chan s.dev n).fe.activity = .transmitting → Runs (.txFrameValid n) s fun t =>
      (chan t n).fe.activity = .none ∧ (chan t n).fe.busIdle = false ∧ (chan t n).fe.intermission = true ∧
      (chan t n).fe.txFrame = none ∧
      (chan t n).fe.tec = tecGood (chan s.dev n).fe.tec ∧ (chan t n).fe.recv = (chan s.dev n).fe.recv ∧
      ((lqEnt t n i).st = .free ∨ (lqEnt t n i).closing = true) ∧
      (i = ballotIdx s.dev n → (chan s.dev n).slp.phase = .offer → (chan t n).slp.phase = .window ∧
        (chan t n).slp.windowEnd = rawAdd (eofEdge s.dev n false) ((chan s.dev n).slp.runWindow.toNat * msTicks)) ∧
      (i = ballotIdx s.dev n → (chan s.dev n).slp.phase = .commit → (chan t n).slp.phase = .descent ∧
        (chan t n).slp.descentEnd = rawAdd (eofEdge s.dev n false) ((chan s.dev n).slp.runDescent.toNat * msTicks)) ∧
      (chan t n).line = (chan s.dev n).line ∧ OnlyChanStored n (noBanks s.dev) (noBanks t))

/-- An error at an integrated channel that is not idle ends the frame, the bus not idle; it is recorded in CHn_LASTERR
with its kind, field (the acknowledge delimiter for CRC and STUFF_COUNT, the res bit for TDC_RANGE, which stands in a
sent FD frame with BRS under tdc_en alone; a FORM error not where pex_en makes it a protocol exception), bit index and
side; its flag is by the state before the count; and in driving mode raises TEC of a transmitter or REC of a receiver
with the fault-confinement state that follows; in monitoring mode no counter moves. A protocol exception, at the res bit
or with fd_en not in use at the FDF bit, is recorded, counts nothing and begins a new integration. An overload frame of
a driving channel that follows no frame in monitoring mode appends its entry alone. The amounts by which TEC and REC
rise are ISO 11898-1's (presumed, log 11). Under these conditions on state and operands alone exec answers the next
state described, for .errorDetected, .protocolException, .overloadSent. -/
def Obligations.BusErrors : Prop :=
  ∀ (s : State) (n : ChanNo), Up s → (chan s.dev n).fe.integrated = true →
    let fe := (chan s.dev n).fe
    (∀ (kind : Sys2Proof.ErrKind) (field : Sys2Proof.BusField) (idx : BitVec 12) (cnt : Sys2Proof.ErrCount), modeOf s.dev n ≠ .idle →
      (kind ≠ .tdcRange ∨ (fe.activity = .transmitting ∧ fe.cfgUse.getLsbD 2 = true ∧
        ∃ f, fe.txFrame = some f ∧ f.fdf = true ∧ f.brs = true)) →
      (kind = .form → fe.cfgUse.getLsbD 1 = true → field ≠ if fe.cfgUse.getLsbD 0 = true then .res else .fdf) →
      Runs (.errorDetected n kind field idx cnt) s fun t =>
        (chan t n).fe.activity = .none ∧ (chan t n).fe.busIdle = false ∧
        (chan t n).fe.errFlag = (if modeOf s.dev n = .driving ∧ fe.monitored = false then some fe.fcState else none) ∧
        (chan t n).fe.lastErr = pack [(0, errCode kind), (4, if kind = .crc ∨ kind = .stuffCount then 0x10 else
          if kind = .tdcRange then 0x07 else fieldCode field), (9, fe.asTx.toNat), (10, idx.toNat)] ∧
        (modeOf s.dev n = .driving → fe.monitored = false → fe.asTx = true → (chan t n).fe.tec = tecAfter fe.tec cnt ∧
          (chan t n).fe.recv = fe.recv ∧ (chan t n).fe.fcState = fcStateOf (tecAfter fe.tec cnt) fe.recv) ∧
        (modeOf s.dev n = .driving → fe.monitored = false → fe.asTx = false → (chan t n).fe.recv = recAfter fe.recv cnt ∧
          (chan t n).fe.tec = fe.tec ∧ (chan t n).fe.fcState = fcStateOf fe.tec (recAfter fe.recv cnt)) ∧
        ((modeOf s.dev n ≠ .driving ∨ fe.monitored = true) →
          (chan t n).fe.tec = fe.tec ∧ (chan t n).fe.recv = fe.recv ∧ (chan t n).fe.fcState = fe.fcState) ∧
        (s.dev.pair.role = .unpaired → OnlyChan n s.dev t)) ∧
    (∀ (field : Sys2Proof.BusField) (idx : BitVec 12), modeOf s.dev n ≠ .idle → fe.cfgUse.getLsbD 1 = true →
      field = (if fe.cfgUse.getLsbD 0 = true then .res else .fdf) →
      Runs (.protocolException n field idx) s fun t =>
        (chan t n).fe = { fe with
          activity := .none, integrated := false, busIdle := false, intermission := false, txFrame := none, txBits := []
          evt := setBit fe.evt 4
          lastErr := pack [(0, 8), (4, fieldCode field), (9, fe.asTx.toNat), (10, idx.toNat)] } ∧
        (chan t n).line = (chan s.dev n).line ∧ OnlyChan n s.dev t) ∧
    (∀ field : Sys2Proof.BusField, (modeOf s.dev n ≠ .driving ∨ fe.monitored = true) → RunsTo (.overloadSent n field) s s.dev) ∧
    (∀ field : Sys2Proof.BusField, modeOf s.dev n = .driving → fe.monitored = false → Runs (.overloadSent n field) s fun t =>
      (chan t n).fe = { fe with busIdle := false, intermission := false } ∧ (chan t n).line = (chan s.dev n).line ∧
      Notes n (plainWords (busStamp s.dev n) s.dev.tim.gen 3 (pack [(0, 3)]) [pack [(0, fieldCode field)]]) s.dev t ∧
      OnlyChan n s.dev t)

/-- Eleven recessive bits make the bus idle, from where driving mode is in force; they integrate a channel that is not
idle, and the channel takes its bit timing from the registers, integrated before or not, unless its district is held. A
restart in bus-off starts the recovery count at 0; its RECOVERY_START entry is written unless the channel is idle (R125;
log 97); out of bus-off it sets restart_refused alone. The 128th occurrence ends the recovery with counters 0 and
error-active. A copy of the holder's bus-off at a member without fc_local does not recover (R287; inferred, log 157).
Under these conditions on state and operands alone exec answers the next state described, for .busIntegration,
.recoveryStart, .recoveryDone. -/
def Obligations.IntegrationAndRecovery : Prop :=
  ∀ (s : State) (n : ChanNo), Up s →
    let fe := (chan s.dev n).fe
    let free := fun (f : FrameEngine) => if f.activity = .none then { f with busIdle := true, intermission := false, monitored := false } else f
    let took := fun (f : FrameEngine) => if s.dev.img.held = some (n.val / 8 + 1) then f
      else { f with nbtUse := f.nbt, dbtUse := f.dbt, cfgUse := f.feCfg }
    (modeOf s.dev n ≠ .idle → fe.integrated = true → fe.recovering = false →
      RunsTo (.busIntegration n) s (onFe s.dev n (fun f => free (took f)))) ∧
    (modeOf s.dev n ≠ .idle → fe.integrated = false → fe.recovering = false →
      RunsTo (.busIntegration n) s (onFe s.dev n (fun f => { took f with
        integrated := true, busIdle := true, intermission := false, monitored := false, activity := .none }))) ∧
    (modeOf s.dev n ≠ .idle → fe.integrated = true → fe.recovering = true → runsFc s.dev n = true →
      (chan s.dev n).line.rxReady = true → fe.recovCnt.toNat < 127 →
      RunsTo (.busIntegration n) s (onFe s.dev n (fun f => { free (took f) with recovCnt := f.recovCnt + 1 }))) ∧
    (fe.fcState ≠ .busOff → RunsTo (.recoveryStart n) s (onFe s.dev n (fun f => { f with evt := setBit f.evt 3 }))) ∧
    (fe.fcState = .busOff → fe.recovering = false → runsFc s.dev n = true → Runs (.recoveryStart n) s fun t =>
      (chan t n).fe = { fe with recovering := true, recovCnt := 0 } ∧
      (modeOf s.dev n ≠ .idle → Notes n (busStateNow s.dev 9 (fcWord fe)) s.dev t) ∧
      (modeOf s.dev n = .idle → (chan t n).jn = (chan s.dev n).jn) ∧ OnlyChan n s.dev t) ∧
    (fe.recovering = true → runsFc s.dev n = true → fe.fcState = .busOff → (chan s.dev n).line.rxReady = true → fe.recovCnt = 127 →
      Runs (.recoveryDone n) s fun t =>
        (chan t n).fe.recovering = false ∧ (chan t n).fe.recovCnt = 0 ∧ (chan t n).fe.tec = 0 ∧ (chan t n).fe.recv = 0 ∧
        (chan t n).fe.fcState = .active ∧ (chan t n).line = (chan s.dev n).line ∧
        OnlyChan n { s.dev with pair := { s.dev.pair with fcLocal := clrBit s.dev.pair.fcLocal n.val } } t) ∧
    (runsFc s.dev n = false → fe.fcState = .busOff → RunsTo (.recoveryStart n) s s.dev ∧ RunsTo (.recoveryDone n) s s.dev)

/-- A window write to the entry that CHn_LQ_SEL names, FREE and with the queue placed, with its bank free, stores the
word at the entry's place and nothing else in memory; a member of a pair notes how its partner translates a launch time
written (R461; log 163). To an entry that is not FREE it sets win_busy and nothing else. A window read of agreeing check
bits answers the word. An access whose turn it is not, or whose bank is not free, waits; which requester makes it is the
model's choice (log 133). Under these conditions on state and operands alone exec answers the next state described, for
.lowHalfRead, .lqWindowWrite. -/
def Obligations.LaunchQueueWindow : Prop :=
  ∀ (s : State) (n : ChanNo) (w : Fin 24) (v : Word), Up s →
    let i : LqIdx := (chan s.dev n).lq.sel.toFin
    ((lqEnt s.dev n i).st = .free → (chan s.dev n).lq.base.isSome = true → Served s.dev (.lqWin n w.val v) → Runs (.lqWindowWrite n w v) s fun t =>
      let noted := if paired s.dev = true ∧ (w.val = 2 ∨ w.val = 3) then
          tabSet none (chan s.dev n).lq.abroad i.val (some (translateAbroad s.dev (lqLaunch t n i)))
        else (chan s.dev n).lq.abroad
      sramWord t (lqPlace s.dev n i w.val) = v ∧
      (∀ a, (∀ b, b < 4 → a ≠ lqPlace s.dev n i w.val + b) → sramByte t a = sramByte s.dev a) ∧
      chan t n = { chan s.dev n with lq := { (chan s.dev n).lq with abroad := noted } } ∧ OnlyChan n (noBanks s.dev) (noBanks { t with sram := s.dev.sram })) ∧
    ((lqEnt s.dev n i).st ≠ .free → Served s.dev (.lqWin n w.val v) →
      Runs (.lqWindowWrite n w v) s (OnlyBanks (onLq s.dev n (fun q => { q with evt := setBit q.evt 0 })))) ∧
    (¬ Served s.dev (.lqWin n w.val v) → Runs (.lqWindowWrite n w v) s (Waits s.dev (.lqWin n w.val v))) ∧
    (∀ (src : Sys2Proof.Src) (a : Offs), a.toNat = chanOff n (0x300 + 4 * w.val) → s.dev.svc.recovery = false →
      (chan s.dev n).lq.base.isSome = true → flipsAt s.dev (lqPlace s.dev n i w.val) = 0 → Served s.dev (.read src a.toNat) → Runs (.lowHalfRead src a 4) s fun t =>
        t.glb.rdata = sramWord s.dev (lqPlace s.dev n i w.val) ∧ t.sram = s.dev.sram ∧ t.ch = s.dev.ch)

/-- A commit, its entry's bank free, writes its entry and code to CHn_LQ_RESULT. It is refused with ENTRY_BUSY (4),
NO_DRIVE_ROLE (5), SHADOW (6), BAD_FORMAT (7), FD_DISABLED (8) or BAD_STAMP (9), the first that holds, with
commit_refused set and the entry unchanged. Else an untimed entry is READY, a timed one WAITING before its launch time,
and at or after it READY, or late as the entry asks: sent late, or dropped FREE; the unit holds the words it fetched at
the commit (log 160). One whose turn it is not, or whose bank is not free, waits; its requester is the model's choice
(log 133). Under these conditions on state and operands alone exec answers the next state described, for .lqCommit. -/
def Obligations.LaunchQueueCommit : Prop :=
  ∀ (s : State) (n : ChanNo) (i : LqIdx), Up s →
    let d := s.dev
    let checks : List (Bool × Nat) := [
      (decide ((lqEnt d n i).st ≠ .free), 4), (!mayDrive (chan d n).fe.role, 5), (shadowFor d n, 6),
      (!lqFormatOk d n i, 7), ((lqWord d n i 1).getLsbD 4 && !(chan d n).fe.feCfg.getLsbD 0, 8), (!lqStampOk d n i, 9)]
    (¬ Served d (.commit n i) → Runs (.lqCommit n i) s (Waits d (.commit n i))) ∧
    (∀ c, Served d (.commit n i) → (checks.find? (·.1)).map (·.2) = some c → Runs (.lqCommit n i) s (OnlyBanks (onLq d n (fun q => { q with
      evt := setBit q.evt 1, resIdx := BitVec.ofNat 7 i.val, resCode := BitVec.ofNat 4 c })))) ∧
    (Served d (.commit n i) → checks.find? (·.1) = none → Runs (.lqCommit n i) s fun t =>
      (chan t n).lq.resIdx = BitVec.ofNat 7 i.val ∧ (chan t n).lq.sel = (chan d n).lq.sel ∧
      (lqTimed d n i = false → (chan t n).lq.resCode = 1 ∧ lqEnt t n i = { st := .ready, words := lqFetched d n i }) ∧
      (lqTimed d n i = true → d.tim.raw = lqLaunch d n i → (chan t n).lq.resCode = 1 ∧ lqEnt t n i = { st := .ready, words := lqFetched d n i }) ∧
      (lqTimed d n i = true → laterThan (lqLaunch d n i) d.tim.raw = true →
        (chan t n).lq.resCode = 1 ∧ lqEnt t n i = { st := .waiting, words := lqFetched d n i }) ∧
      (lqTimed d n i = true → d.tim.raw ≠ lqLaunch d n i → laterThan (lqLaunch d n i) d.tim.raw = false →
        (lqWord d n i 1).getLsbD 9 = true → (chan t n).lq.resCode = 3 ∧ (chan t n).lq.evt = setBit (chan d n).lq.evt 4 ∧
          lqEnt t n i = lqEnt d n i) ∧
      (lqTimed d n i = true → d.tim.raw ≠ lqLaunch d n i → laterThan (lqLaunch d n i) d.tim.raw = false →
        (lqWord d n i 1).getLsbD 9 = false → (chan t n).lq.resCode = 2 ∧
          lqEnt t n i = { st := .ready, late := true, words := lqFetched d n i }) ∧
      (chan t n).fe = (chan d n).fe ∧ (chan t n).line = (chan d n).line ∧ OnlyChan n (noBanks d) (noBanks t))

/-- A WAITING entry whose launch time the raw counter has reached is READY. A cancel joins those that cross, and at its
applying edge takes effect on its entry: FREE sets cancel_idle, WAITING and READY have their outcome with no frame sent
(FREE, or waiting for the TX_ECHO entry), ON_BUS has the cancel latched; a cancel of all entries does so for each. Under
these conditions on state and operands alone exec answers the next state described, for .launchTimeReached, .lqCancel,
.lqCancelAll, .cancelApply. -/
def Obligations.LaunchAndCancel : Prop :=
  ∀ (s : State) (n : ChanNo), Up s →
    (∀ i : LqIdx, (lqEnt s.dev n i).st = .waiting → (lqEnt s.dev n i).closing = false →
      reached s.dev.tim.raw (lqLaunch s.dev n i) = true → Runs (.launchTimeReached n i) s fun t =>
        lqEnt t n i = { lqEnt s.dev n i with st := .ready } ∧ (chan t n).fe = (chan s.dev n).fe ∧
        (chan t n).line = (chan s.dev n).line ∧ OnlyChan n s.dev t) ∧
    (∀ i : LqIdx, RunsTo (.lqCancel n i) s (onLq s.dev n (fun q => { q with cancels := q.cancels ++ [some i] }))) ∧
    RunsTo (.lqCancelAll n) s (onLq s.dev n (fun q => { q with cancels := q.cancels ++ [none] })) ∧
    (∀ c rest, (chan s.dev n).lq.cancels = c :: rest → Runs (.cancelApply n) s fun t =>
      (chan t n).lq.cancels = rest ∧ (chan t n).fe = (chan s.dev n).fe ∧ (chan t n).line = (chan s.dev n).line ∧
      (∀ i : LqIdx, (c = some i ∨ c = none) → (lqEnt s.dev n i).closing = false →
        (((lqEnt s.dev n i).st = .waiting ∨ (lqEnt s.dev n i).st = .ready) →
          (lqEnt t n i).st = .free ∨ (lqEnt t n i).closing = true) ∧
        ((lqEnt s.dev n i).st = .onBus → (lqEnt t n i).st = .onBus ∧ (lqEnt t n i).cancel = true) ∧
        ((lqEnt s.dev n i).st = .free → (chan t n).lq.evt.getLsbD 2 = true ∧
          (c = some i → i ≠ ballotIdx s.dev n → chan t n = { chan s.dev n with
            lq := { (chan s.dev n).lq with cancels := rest, evt := setBit (chan s.dev n).lq.evt 2 } }))) ∧
      OnlyChan n s.dev t)

/-- The staged words of a frame's header, and its payload words one by one, of an own frame as sent, join the staging
buffer while it has room. With its bank not free a write waits and no owner changes. With the bank free a write of a
whole entry with room in the journal, besides the places that a frame in progress keeps, makes it visible: its words
stand at the write position with END on the last and the entry sequence in word 3, the sequence advances, and no byte
outside the journal and queue of the channel changes. A write without room loses the entry, which is counted, its
sequence taken, and stores nothing. Under these conditions on state and operands alone exec answers the next state
described, for .journalWrite, .journalWordStaged. -/
def Obligations.JournalWriting : Prop :=
  ∀ (s : State) (n : ChanNo), Up s →
    let j := (chan s.dev n).jn
    (∀ f : Sys2Proof.Frame, (chan s.dev n).fe.activity = .receiving → modeOf s.dev n ≠ .idle → journalOn s.dev n = true →
      j.frameWords = 0 → j.losing = false → 0 < frameLen f → (chan s.dev n).fe.txFrame = none → stagedWords j + 4 ≤ 24 →
      RunsTo (.journalWordStaged n (.head f)) s (onJn s.dev n (fun j => { j with
        staging := j.staging ++ [.tent (frameHeader (chan s.dev n).fe.stamp (chan s.dev n).fe.gen 0 f) (chan s.dev n).fe.gen]
        frameWords := 4, frameTotal := 4 + (frameLen f + 3) / 4 }))) ∧
    (∀ w : Word, (chan s.dev n).fe.activity ≠ .none → modeOf s.dev n ≠ .idle → journalOn s.dev n = true →
      4 ≤ j.frameWords → j.frameWords + 1 < j.frameTotal → j.losing = false → stagedWords j + 1 ≤ 24 →
      let put := fun (v : Word) => onJn s.dev n (fun j => { j with
        staging := j.staging ++ [.tent [v] (chan s.dev n).fe.gen], frameWords := j.frameWords + 1 })
      ((chan s.dev n).fe.txFrame = none → RunsTo (.journalWordStaged n (.data w)) s (put w)) ∧
      (∀ own, (chan s.dev n).fe.txFrame = some own → RunsTo (.journalWordStaged n (.data w)) s
        (put ((wordsOf (fitTo (frameLen own) own.data)).getD (j.frameWords - 4) 0)))) ∧
    (¬ BankFree s.dev (qChan n, .journal) (jPlace j j.wr) → Runs (.journalWrite n) s fun t =>
      { t with con := s.dev.con } = s.dev ∧ ∀ r : ResNo, (arbOf t r).owner = (arbOf s.dev r).owner) ∧
    (∀ ws e rest, j.staging = .whole ws e :: rest → BankFree s.dev (qChan n, .journal) (jPlace j j.wr) → ws.length + jHeld j ≤ jFree j → 4 ≤ ws.length → j.mark = none →
      j.consumeTo = none → 0 < jCap j → j.rd ≤ j.wr → Runs (.journalWrite n) s fun t =>
        (chan t n).jn.staging = rest ∧ (chan t n).jn.wr = j.wr + ws.length ∧ (chan t n).jn.rd = j.rd ∧
        (chan t n).jn.nextSeq = j.nextSeq + 1 ∧
        (∀ i, i < ws.length → sramWord t (jPlace j (j.wr + i)) = (withSeq ws j.nextSeq).getD i 0 ∧
          tabGet false t.sram.ends (jPlace j (j.wr + i)) = decide (i + 1 = ws.length)) ∧
        OnlyChanStored n (noBanks s.dev) (noBanks t)) ∧
    (∀ ws rest, j.staging = .whole ws none :: rest → BankFree s.dev (qChan n, .journal) (jPlace j j.wr) →
      jFree j < ws.length + jHeld j → Runs (.journalWrite n) s fun t =>
        chan t n = { chan s.dev n with
          jn := { j with staging := rest, ovf := cntUp j.ovf, nextSeq := j.nextSeq + 1 } } ∧
        OnlyChan n (noBanks s.dev) (noBanks t))

/-- With a word visible a pop answers it with VALID, END, CORR and UNCORR as the check bits and the END mark give them,
latches the tags for the high half, and advances the read position by one; corrected and uncorrectable words are
counted. An empty journal answers 0 with VALID 0 and its read position stays. A window read pops up to its count in
order, each word with its tags, and 0 with VALID 0 once the journal is empty. An access whose bank is not free waits;
its requester is the model's choice (log 133). set_mark takes the read position as the mark; rewind puts the read
position back to a valid mark, and without one sets rewind_refused and nothing else; clear_mark ends the mark; a flush
takes the read position to the last visible word. The position of the mirror (R288) goes with the read position; nothing
else of the journal changes. Under these conditions on state and operands alone exec answers the next state described,
for .journalPop, .journalWindowRead, .setMark, .rewind, .clearMark, .flush. -/
def Obligations.JournalReadingAndMark : Prop :=
  (∀ (s : State) (n : ChanNo), Up s →
    let j := (chan s.dev n).jn
    let c := delivered s.dev (jPlace j j.rd)
    (¬ Served s.dev (.pop n) → Runs (.journalPop n) s (Waits s.dev (.pop n))) ∧
    (j.rd < j.wr → Served s.dev (.pop n) → Runs (.journalPop n) s fun t =>
      t.glb.rdata = c.word ∧ (chan t n).jn.rd = j.rd + 1 ∧ (chan t n).jn.wr = j.wr ∧
      (chan t n).jn.corr = (if c.corr then cntUp j.corr else j.corr) ∧
      (chan t n).jn.uncorr = (if c.uncorr then cntUp j.uncorr else j.uncorr) ∧
      tabGet (0 : Word) t.glb.hiLatch (chanOff n 0x400) =
        (BitVec.ofNat 4 (1 + 2 * c.endMark.toNat + 4 * c.corr.toNat + 8 * c.uncorr.toNat)).setWidth 32 ∧
      (chan t n).fe = (chan s.dev n).fe ∧ (chan t n).lq = (chan s.dev n).lq ∧ (chan t n).slp = (chan s.dev n).slp ∧
      OnlyChan n (noBanks { s.dev with glb := { s.dev.glb with rdata := t.glb.rdata, hiLatch := t.glb.hiLatch } }) (noBanks t)) ∧
    (j.wr ≤ j.rd → Served s.dev (.pop n) → Runs (.journalPop n) s (OnlyBanks
      { s.dev with glb := { s.dev.glb with
        rdata := 0, hiLatch := tabSet (0 : Word) s.dev.glb.hiLatch (chanOff n 0x400) 0 } })) ∧
    (∀ count : Fin 21, j.rd ≤ j.wr → Served s.dev (.window n count.val) → Runs (.journalWindowRead n count) s fun t =>
      t.glb.rwin.length = count.val ∧ (chan t n).jn.rd = min (j.rd + count.val) j.wr ∧ (chan t n).jn.wr = j.wr ∧
      (∀ k : Fin 21, k.val < count.val →
        let x := delivered s.dev (jPlace j (j.rd + k.val))
        (j.rd + k.val < j.wr → (∀ i : Fin 21, i.val < k.val → ones (flipsAt s.dev (jPlace j (j.rd + i.val))) ≤ 2) →
          t.glb.rwin.getD k.val (0, 0) =
          (x.word, BitVec.ofNat 4 (1 + 2 * x.endMark.toNat + 4 * x.corr.toNat + 8 * x.uncorr.toNat))) ∧
        (j.wr ≤ j.rd + k.val → t.glb.rwin.getD k.val (0, 0) = (0, 0))) ∧
      (chan t n).fe = (chan s.dev n).fe ∧ (chan t n).lq = (chan s.dev n).lq ∧
      OnlyChan n (noBanks { s.dev with glb := { s.dev.glb with rwin := t.glb.rwin, hiLatch := t.glb.hiLatch } }) (noBanks t))) ∧
  (∀ (s : State) (n : ChanNo), Up s →
    let j := (chan s.dev n).jn
    Runs (.setMark n) s (fun t => (chan t n).jn = { j with mark := some j.rd, markHdr := j.popHdr, markTime := j.posTime } ∧
      (chan t n).fe = (chan s.dev n).fe ∧ (chan t n).lq = (chan s.dev n).lq ∧ OnlyChan n s.dev t) ∧
    (∀ m, j.mark = some m → Runs (.rewind n) s fun t => 
        (chan t n).jn = { j with rd := m, popHdr := j.markHdr, posTime := j.markTime } ∧
      (chan t n).fe = (chan s.dev n).fe ∧ (chan t n).lq = (chan s.dev n).lq ∧ OnlyChan n s.dev t) ∧
    (j.mark = none → RunsTo (.rewind n) s (onJn s.dev n (fun j => { j with rewindRefused := true }))) ∧
    Runs (.clearMark n) s (fun t => (chan t n).jn = { j with mark := none } ∧
      (chan t n).fe = (chan s.dev n).fe ∧ (chan t n).lq = (chan s.dev n).lq ∧ OnlyChan n s.dev t) ∧
    Runs (.flush n) s (fun t => (chan t n).jn = { j with rd := j.wr, popHdr := [], posTime := lastTime s.dev j } ∧
      (chan t n).fe = (chan s.dev n).fe ∧ (chan t n).lq = (chan s.dev n).lq ∧ OnlyChan n s.dev t))

/-- A go, or the automatic ballot at its time, on a planned HEAD channel driving in NORMAL with no ballot running and
its entry FREE begins phase OFFER with the next number, takes the times in force, and commits SLEEP_OFFER: at the holder
of the channel the entry is READY with the frame's identifier, DLC 4, number and times; with the entry's bank not free
the frame waits for it. The first reason that fails refuses it, with last_result REFUSED and refuse_reason, and nothing
else but the automatic ballot's time changes; that a refused go drops it is the model's choice (log 144). Under these
conditions on state and operands alone exec answers the next state described, for .ballotGo, .reballot. -/
def Obligations.BallotStart : Prop :=
  ∀ (s : State) (n : ChanNo), Up s →
    let v := (chan s.dev n).slp
    let reasons : List (Bool × Nat) := [
      (!v.planValid, 1), (decide ((chan s.dev n).fe.role ≠ .head), 2),
      (decide ((chan s.dev n).line.state ≠ .normal) || decide (modeOf s.dev n ≠ .driving), 3),
      (decide (v.phase ≠ .idle), 4), (decide ((lqEnt s.dev n (ballotIdx s.dev n)).st ≠ .free), 5)]
    let free := (chan s.dev n).lq.base.isSome = true → BankFree s.dev (qChan n, .queue) (lqPlace s.dev n (ballotIdx s.dev n) 0)
    let runs := { v with
        phase := .offer, number := v.number + 1, runWindow := v.windowMs, runDescent := v.descentMs
        runRepeat := v.repeatN, runReballot := v.reballotS, reballotAt := none, holds := [] }
    let waits := fun (t : Device) => (chan t n).slp.due.isSome = true ∧ (chan t n).slp = { runs with due := (chan t n).slp.due } ∧
      lqEnt t n (ballotIdx s.dev n) = lqEnt s.dev n (ballotIdx s.dev n) ∧
      (chan t n).line = (chan s.dev n).line ∧ (chan t n).fe = (chan s.dev n).fe ∧ OnlyChan n (noBanks s.dev) (noBanks t)
    let begun := fun (t : Device) =>
      (chan t n).slp = { runs with due := none } ∧
      (shadowFor s.dev n = false → lqEnt t n (ballotIdx s.dev n) = { st := .ready, words := lqFetched t n (ballotIdx s.dev n) } ∧
        ((chan s.dev n).lq.base.isSome = true → lqWord t n (ballotIdx s.dev n) 0 = v.offerId.setWidth 32 ∧
          lqWord t n (ballotIdx s.dev n) 1 = 4 ∧ lqWord t n (ballotIdx s.dev n) 4 =
            ((0 : BitVec 8) ++ v.descentMs ++ v.windowMs ++ (v.number + 1)))) ∧
      (chan t n).line = (chan s.dev n).line ∧ (chan t n).fe = (chan s.dev n).fe ∧ OnlyChanStored n (noBanks s.dev) (noBanks t)
    (reasons.find? (·.1) = none → ¬ free → Runs (.ballotGo n) s waits) ∧
    (reasons.find? (·.1) = none → free →
      Runs (.ballotGo n) s begun ∧ (∀ at_, v.reballotAt = some at_ → reached s.dev.tim.raw at_ = true →
        Runs (.reballot n) s begun)) ∧
    (∀ c, (reasons.find? (·.1)).map (·.2) = some c →
      let refused := onSlp s.dev n (fun x => { x with lastResult := 7, refuseReason := BitVec.ofNat 4 c, reballotAt := none })
      RunsTo (.ballotGo n) s refused ∧ (∀ at_, v.reballotAt = some at_ → reached s.dev.tim.raw at_ = true →
        RunsTo (.reballot n) s refused))

/-- An abort of a running ballot returns it to IDLE with ABORTED_BY_HOST (5). At the window's end a ballot with a HOLD
ends HELD (2); with none, its entry FREE and no other entry READY, it goes on to COMMIT. At the end of descent on an
idle bus, or in the intermission before it (inferred, log 139), in NORMAL the ballot, where this member is to advance
it, ends SLEPT (1) and the line state is SLEEP; a channel that follows is advanced at either member (log 158). At the
offer's window end a HOLD that is not ON_BUS leaves its entry FREE with no TX_ECHO entry. CLEAR_LOG leaves the 16
entries unused and nothing else of the channel changed. Under these conditions on state and operands alone exec answers
the next state described, for .ballotAbort, .clearLog, .ballotWindowEnd, .descentEnd, .holdWithdraw. -/
def Obligations.BallotEndsAndWithdrawals : Prop :=
  (∀ (s : State) (n : ChanNo), Up s →
    let v := (chan s.dev n).slp
    (v.phase ≠ .idle → Runs (.ballotAbort n) s fun t =>
      (chan t n).slp.phase = .idle ∧ (chan t n).slp.lastResult = 5 ∧ (chan t n).line = (chan s.dev n).line ∧
      (chan t n).fe = (chan s.dev n).fe ∧ OnlyChan n (noBanks s.dev) (noBanks t)) ∧
    (v.phase = .window → reached s.dev.tim.raw v.windowEnd = true → (chan s.dev n).fe.activity = .none →
      shadowFor s.dev n = false →
      (v.holds ≠ [] → Runs (.ballotWindowEnd n) s fun t =>
        (chan t n).slp.phase = .idle ∧ (chan t n).slp.lastResult = 2 ∧
        (chan t n).slp.holders = BitVec.ofNat 7 (min 127 v.holds.length) ∧ (chan t n).line = (chan s.dev n).line ∧
        (chan t n).fe = (chan s.dev n).fe ∧ OnlyChan n (noBanks s.dev) (noBanks t)) ∧
      (v.holds = [] → (∀ i : LqIdx, i ≠ ballotIdx s.dev n → lqReady s.dev n i = false) →
        (lqEnt s.dev n (ballotIdx s.dev n)).st = .free → Runs (.ballotWindowEnd n) s fun t =>
          (chan t n).slp.phase = .commit ∧ (chan t n).line = (chan s.dev n).line ∧ (chan t n).fe = (chan s.dev n).fe ∧
          OnlyChanStored n (noBanks s.dev) (noBanks t))) ∧
    ((v.phase = .descent ∨ v.phase = .follow) → reached s.dev.tim.raw v.descentEnd = true →
      idleBus (chan s.dev n).fe = true → (chan s.dev n).line.state = .normal → ballotHere s.dev n = true →
      Runs (.descentEnd n) s fun t =>
        (chan t n).slp.phase = .idle ∧ (chan t n).slp.lastResult = 1 ∧ (chan t n).line.state = .sleep ∧
        (chan t n).line.req = .sleep ∧ OnlyChan n (noBanks s.dev) (noBanks t))) ∧
  (∀ (s : State) (n : ChanNo), Up s →
    (∀ at_, (chan s.dev n).slp.holdUntil = some at_ → reached s.dev.tim.raw at_ = true →
      ((lqEnt s.dev n (ballotIdx s.dev n)).st = .ready ∨ (lqEnt s.dev n (ballotIdx s.dev n)).st = .waiting) →
      (lqEnt s.dev n (ballotIdx s.dev n)).closing = false →
      ((chan s.dev n).slp.phase = .idle ∨ (chan s.dev n).slp.phase = .follow) → Runs (.holdWithdraw n) s fun t =>
        lqEnt t n (ballotIdx s.dev n) = {} ∧ (chan t n).slp = { (chan s.dev n).slp with holdUntil := none } ∧
        (chan t n).jn = (chan s.dev n).jn ∧ (chan t n).fe = (chan s.dev n).fe ∧ OnlyChan n (noBanks s.dev) (noBanks t)) ∧
    Runs (.clearLog n) s (fun t =>
      chan t n = { chan s.dev n with slp := { (chan s.dev n).slp with
        log := Vector.replicate 16 noHold } } ∧ OnlyChan n (noBanks s.dev) (noBanks t)))

/-- During SLEEP_COMMIT's own attempt the pre-arm takes a calibration at most 10 ms old; a follower's pre-arm does the
same at a frame it receives, and in FOLLOW leaves the armed recogniser as it is (log 158). The strobe arms a pre-armed
recogniser with the calibration it holds. An arming with no fresh calibration waits for one measured first, which its
end then takes. Settings in force are those of the arming. Under these conditions on state and operands alone exec
answers the next state described, for .preArm, .arm, .wakeCalStart, .wakeCalDone, .followPreArm. -/
def Obligations.RecogniserArmed : Prop :=
  ∀ (s : State) (n : ChanNo), Up s →
    let w := (chan s.dev n).wake
    let onBus := (chan s.dev n).slp.phase = .commit ∧ lqOnBus s.dev n = some (ballotIdx s.dev n)
    let following := mayFollow s.dev n = true ∧ (chan s.dev n).fe.activity = .receiving
    let fresh := s.dev.glb.loaded = true ∧ w.calValid = true ∧ (s.dev.tim.raw - w.calRaw).toNat ≤ 10 * msTicks
    let taken := fun (pre : Bool) (cal : BitVec 12) (t : Device) =>
      (chan t n).wake = { w with
        armed := !pre, preArmed := pre, armWait := false, armedCal := cal, use := w.set, errCnt := 0 } ∧
      (chan t n).line = (chan s.dev n).line ∧ (chan t n).slp = (chan s.dev n).slp ∧ OnlyChan n s.dev t
    (onBus → fresh → Runs (.preArm n) s (taken true w.calTaps)) ∧
    (following → fresh → Runs (.followPreArm n) s (taken true w.calTaps)) ∧
    (mayPreArm s.dev n = true → (chan s.dev n).slp.phase = .follow → (chan s.dev n).fe.activity = .receiving →
      (w.armed = true → Runs (.followPreArm n) s fun t => (chan t n).wake = { w with preArmed := true } ∧
        (chan t n).line = (chan s.dev n).line ∧ (chan t n).slp = (chan s.dev n).slp ∧ OnlyChan n s.dev t) ∧
      (w.armed = false → RunsTo (.followPreArm n) s s.dev)) ∧
    (onBus → s.dev.glb.loaded = true → ¬ fresh →
      RunsTo (.preArm n) s (onWake s.dev n (fun w => { w with armWait := true, preArmed := true, calBusy := true }))) ∧
    (onBus → w.preArmed = true → w.armWait = false → Runs (.arm n) s (taken false w.armedCal)) ∧
    (((chan s.dev n).line.state = .normal ∨ (chan s.dev n).line.state = .listen ∨ (chan s.dev n).line.state = .standby ∨
        w.armWait = true) → s.dev.glb.loaded = true →
      RunsTo (.wakeCalStart n) s (onWake s.dev n (fun w => { w with calBusy := true }))) ∧
    (∀ taps : BitVec 12, w.calBusy = true → Runs (.wakeCalDone n taps) s fun t =>
      (chan t n).wake.calBusy = false ∧ (chan t n).wake.calTaps = taps ∧ (chan t n).wake.calValid = true ∧
      (chan t n).wake.calRaw = s.dev.tim.raw ∧ (chan t n).wake.sentCal = some taps ∧
      (w.armWait = true → (chan t n).wake.armedCal = taps ∧ (chan t n).wake.armed = !w.preArmed ∧
        (chan t n).wake.armWait = false) ∧
      (chan t n).line = (chan s.dev n).line ∧ OnlyChan n s.dev t)

/-- A read of TIM_NOW_FRAC answers the fraction of the fabric time of the raw counter now and latches its integer
nanoseconds; a read of TIM_OFFS_FRAC does the same for the offset. Nothing else changes. A starting write to an idle
converter latches the input and makes it busy; to a busy one it is held. At its end the result stands in TIM_CONV_OUT
with the generation used; a forward conversion that finds no generation leaves 0 there with stale and stale_seen set.
With nothing held the converter is idle again, else the held writes are applied in order, up to one that starts the next
conversion. Under these conditions on state and operands alone exec answers the next state described, for .timeNowRead,
.offsetRead, .conversionStart, .conversionDone. -/
def Obligations.TimeReadsAndConversions : Prop :=
  (∀ s : State, Up s →
    let now := s.dev.tim.offset + BitVec.ofInt 80 ((s.dev.tim.raw.toNat : Int) * (s.dev.tim.rate.toNat : Int) / 16777216)
    RunsTo .timeNowRead s { s.dev with
      glb := { s.dev.glb with rdata := (now.extractLsb' 0 16).setWidth 32 }
      tim := { s.dev.tim with nowNs := now.extractLsb' 16 64 } } ∧
    RunsTo .offsetRead s { s.dev with
      glb := { s.dev.glb with rdata := (s.dev.tim.offset.extractLsb' 0 16).setWidth 32 }
      tim := { s.dev.tim with offsNs := s.dev.tim.offset.extractLsb' 16 64 } }) ∧
  (∀ s : State, Up s →
    (∀ hi : Word, s.dev.tim.convBusy = false → Runs (.conversionStart hi) s fun t =>
      t.tim = { s.dev.tim with
        convIn := hi ++ tabGet (0 : Word) s.dev.glb.loStage 0x400068, convBusy := true, convRes := t.tim.convRes } ∧
      (s.dev.tim.inverse = false → s.dev.tim.byGen = true → t.tim.convRes =
        (convertGen s.dev s.dev.tim.convGen (hi ++ tabGet (0 : Word) s.dev.glb.loStage 0x400068)).map
          (fun x => (s.dev.tim.convGen, x))) ∧
      (s.dev.tim.inverse = false → s.dev.tim.byGen = false → t.tim.convRes =
        convertRaw s.dev (hi ++ tabGet (0 : Word) s.dev.glb.loStage 0x400068)) ∧
      { t with tim := s.dev.tim } = s.dev) ∧
    (∀ hi : Word, s.dev.tim.convBusy = true → RunsTo (.conversionStart hi) s
      { s.dev with tim := { s.dev.tim with convHeld := s.dev.tim.convHeld ++ [.start hi] } }) ∧
    (∀ g x v, s.dev.tim.convBusy = true → s.dev.tim.convRes = some (g, x) → Runs .conversionDone s fun t =>
      t.tim.outVal = x.extractLsb' 16 64 ∧ t.tim.outFrac = x.setWidth 16 ∧ t.tim.genUsed = g ∧
      (s.dev.tim.inverse = false → t.tim.stale = false) ∧ (s.dev.tim.convHeld = [] → t.tim.convBusy = false) ∧
      (∀ ws, s.dev.tim.convHeld = .start v :: ws → t.tim.convIn = v ++ tabGet (0 : Word) s.dev.glb.loStage 0x400068 ∧
        t.tim.convBusy = true ∧ t.tim.convHeld = ws) ∧
      (∀ c f, s.dev.tim.convHeld = [.ctrl c, .frac f] → t.tim.convGen = c.extractLsb' 0 4 ∧ t.tim.byGen = c.getLsbD 4 ∧
        t.tim.inverse = c.getLsbD 5 ∧ t.tim.inFrac = f.setWidth 16 ∧ t.tim.convBusy = false ∧ t.tim.convHeld = []) ∧
      (∀ l, s.dev.tim.convHeld = [.low l, .start v] → t.tim.convIn = v ++ l ∧ t.tim.convBusy = true ∧ t.tim.convHeld = []) ∧
      t.tim.evt = s.dev.tim.evt ∧ { t with tim := s.dev.tim, glb := s.dev.glb } = s.dev) ∧
    (s.dev.tim.convBusy = true → s.dev.tim.convRes = none → Runs .conversionDone s fun t =>
      t.tim.outVal = 0 ∧ t.tim.outFrac = 0 ∧ t.tim.stale = true ∧ t.tim.evt = setBit s.dev.tim.evt 3 ∧
      (s.dev.tim.convHeld = [] → t.tim.convBusy = false) ∧ { t with tim := s.dev.tim, glb := s.dev.glb } = s.dev))

/-- A commit of TIM_OFFS_INC by the servo owner takes the staged rate increment along; one of TIM_RATE_INC is staged
under pair_inc and else goes alone, a staged one discarded. The resident servo commits only with pair_inc and a master,
and one generation in a beacon interval (inferred, log 116); else nothing changes. A commit by the other party, or at a
shadow, sets owner_refused and nothing else. INCREMENT_APPLY is the T edge that applies the oldest committed increment,
its boundary the raw value after the edge (inferred, log 115). With the new rate within 1 000 ppm of 6.25 ns the rate
and the offset change together so that fabric time at the boundary moves by the offset increment alone, the generation
advances and is recorded with its boundary; out of range inc_refused is set and the increment and any staged one are
discarded. The edge is also a tick of the SPAN_DOWN cells of a failed side. Under these conditions on state and operands
alone exec answers the next state described, for .offsetIncCommit, .rateIncCommit, .incrementApply. -/
def Obligations.IncrementsOfFabricTime : Prop :=
  (∀ (s : State) (src : Sys2Proof.Src) (hi : Word), Up s →
    let owner := s.dev.pair.role ≠ .shadow ∧
      ((src = .housekeeper ∧ s.dev.tim.servoHost = false) ∨ (src ≠ .housekeeper ∧ s.dev.tim.servoHost = true))
    let works := src = .housekeeper → s.dev.tim.masterLost = false ∧ s.dev.tim.pairInc = true
    let due := src = .housekeeper → Elapsed s.dev s.dev.tim.servoAt (s.dev.tim.beaconMs.toNat * msTicks)
    let v48 : BitVec 48 := (hi ++ tabGet (0 : Word) s.dev.glb.loStage 0x400040 : BitVec 64).setWidth 48
    let v41 : BitVec 41 := (hi ++ tabGet (0 : Word) s.dev.glb.loStage 0x400048 : BitVec 64).setWidth 41
    let refused := { s.dev with tim := { s.dev.tim with evt := setBit s.dev.tim.evt 1 } }
    (owner → works → due → RunsTo (.offsetIncCommit src hi) s { s.dev with tim := { s.dev.tim with
      offsInc := v48, incs := s.dev.tim.incs ++ [⟨v48, s.dev.tim.staged⟩], staged := none
      servoAt := if src = .housekeeper then some s.dev.tim.raw else s.dev.tim.servoAt } }) ∧
    (owner → ¬ (works ∧ due) → RunsTo (.offsetIncCommit src hi) s s.dev) ∧
    (owner → ¬ works → RunsTo (.rateIncCommit src hi) s s.dev) ∧
    (owner → works → s.dev.tim.pairInc = true → RunsTo (.rateIncCommit src hi) s { s.dev with tim := { s.dev.tim with
      rateInc := v41, staged := some v41 } }) ∧
    (owner → works → s.dev.tim.pairInc = false → RunsTo (.rateIncCommit src hi) s { s.dev with tim := { s.dev.tim with
      rateInc := v41, incs := s.dev.tim.incs ++ [⟨0, some v41⟩], staged := none } }) ∧
    (¬ owner → RunsTo (.offsetIncCommit src hi) s refused ∧ RunsTo (.rateIncCommit src hi) s refused)) ∧
  (∀ (s : State) (i : Increment) (rest : List Increment), Up s → s.dev.tim.incs = i :: rest →
    let b : Raw := s.dev.tim.raw + 1
    let e := spanTick (spanTick { s.dev with tim := { s.dev.tim with raw := b } } .east) .west
    let dr : Int := (i.dRate.map BitVec.toInt).getD 0
    let rate : Int := (s.dev.tim.rate.toNat : Int) + dr
    let inRange := 624375 * 1099511627776 ≤ rate * 100000 ∧ rate * 100000 ≤ 625625 * 1099511627776
    let offset := s.dev.tim.offset + BitVec.ofInt 80 i.dOff.toInt -
      BitVec.ofInt 80 ((b.toNat : Int) * dr / 16777216)
    let g := s.dev.tim.gen + 1
    (inRange → Runs .incrementApply s fun t =>
      t.tim = { s.dev.tim with
        raw := b, incs := rest, rate := BitVec.ofInt 48 rate, offset := offset, gen := g
        hist := s.dev.tim.hist.set g.toFin ⟨b, BitVec.ofInt 48 rate, offset, true⟩ } ∧
      (ftNow t b = ftNow s.dev b + BitVec.ofInt 80 i.dOff.toInt ∨
        ftNow t b = ftNow s.dev b + BitVec.ofInt 80 i.dOff.toInt + 1) ∧
      (i.dRate = none → t.tim.rate = s.dev.tim.rate ∧ ftNow t b = ftNow s.dev b + BitVec.ofInt 80 i.dOff.toInt) ∧
      hush { t with tim := e.tim, glb := { t.glb with acquired := s.dev.glb.acquired } } = hush e) ∧
    (¬ inRange → RunsTo .incrementApply s { e with tim := { s.dev.tim with
      raw := b, incs := rest, evt := setBit s.dev.tim.evt 0, staged := none } }))

/-- The joined and numbered time master queues, once in beacon_ms, two beacons of one sequence, one for each ring,
wrapped where the side is wrapped. A sound beacon on a lane with block lock, of another station than this one, from the
station in TIM_MASTER, gives the estimate of the ring it came by, from the arrival raw value and the link delay, and the
servo's error, e_dir - skew_dir with CW first of the directions that can be used, and ends master_lost; one of another
station sets foreign_beacon and no estimate. No beacon for loss_n x beacon_ms sets master_lost and ends both estimates;
before that nothing changes. A write of another station to TIM_MASTER ends both estimates and the skew, and the wait for
beacons counts from then; a write of the same station changes nothing. In both the island reference is selected anew by
the first row of R30 that holds, a change setting ref_switched. Under these conditions on state and operands alone exec
answers the next state described, for .beaconSend, .beacon, .masterLost, .timeMasterWrite. -/
def Obligations.BeaconsAndTheMaster : Prop :=
  (∀ s : State, Up s →
    (s.dev.tim.master = true → s.dev.ring.numbered = true → s.dev.tim.masterSt = s.dev.ring.station → s.dev.ring.join = .joined →
      let cell := fun (body : List Sys2Proof.Byte) =>
        ({ dest := 0, src := s.dev.ring.station, ctype := 16, seq := s.dev.ring.nextSeq, epoch := 0, hop := 0, bcast := true
           pair := false, retried := false, wrapOdd := false, payload := body, seqEcho := s.dev.ring.nextSeq, crc := 0 }
          : Sys2Proof.RCell)
      let due := Elapsed s.dev s.dev.tim.beaconTx (s.dev.tim.beaconMs.toNat * msTicks)
      (¬ due → RunsTo .beaconSend s s.dev) ∧
      (due → RunsTo .beaconSend s (queueOut (queueOut
        { s.dev with ring := { s.dev.ring with nextSeq := s.dev.ring.nextSeq + 1 }, tim := { s.dev.tim with beaconTx := some s.dev.tim.raw } }
        qTime .east (cell (beaconBody s.dev false s.dev.ring.wrapEast.toNat)))
        qTime .west (cell (beaconBody s.dev true s.dev.ring.wrapWest.toNat))))) ∧
    (∀ (at_ : Sys2Proof.Side) (c : Sys2Proof.RCell) (rc : Raw) (k : Fin 125), Sound c → c.src ≠ s.dev.ring.station →
      (port s.dev (sidePort at_)).blockLock = true →
      let a := arrivalRaw (port s.dev (sidePort at_)) rc k.val
      (c.src = s.dev.tim.masterSt → Runs (.beacon at_ c rc k) s fun t =>
        t.tim.masterLost = false ∧
        (at_ = .west → t.tim.cw = beaconEstimate s.dev .west (hopped c) a ∧ t.tim.ccw = s.dev.tim.ccw) ∧
        (at_ = .east → t.tim.ccw = beaconEstimate s.dev .east (hopped c) a ∧ t.tim.cw = s.dev.tim.cw) ∧
        (usable t.tim.cw = true → t.tim.servoErr = some (t.tim.cw.err.signExtend 49 - t.tim.skew.signExtend 49, true)) ∧
        (usable t.tim.cw = false → usable t.tim.ccw = true → t.tim.servoErr = some (t.tim.ccw.err.signExtend 49 + t.tim.skew.signExtend 49, false)) ∧
        t.tim.rate = s.dev.tim.rate ∧ t.tim.offset = s.dev.tim.offset ∧
        OnlyRing s.dev { t with glb := { t.glb with acquired := s.dev.glb.acquired } }) ∧
      (c.src ≠ s.dev.tim.masterSt → Runs (.beacon at_ c rc k) s fun t =>
        t.tim = { s.dev.tim with evt := setBit s.dev.tim.evt 2 } ∧ OnlyRing s.dev t))) ∧
  (∀ s : State, Up s →
    let gone := s.dev.tim.lossN.toNat * s.dev.tim.beaconMs.toNat * msTicks ≤ (s.dev.tim.raw - s.dev.tim.beaconAt).toNat
    (gone → RunsTo .masterLost s (referred { s.dev with tim := { s.dev.tim with
      masterLost := true, cw := { s.dev.tim.cw with valid := false }, ccw := { s.dev.tim.ccw with valid := false } } })) ∧
    (¬ gone → RunsTo .masterLost s s.dev) ∧
    RunsTo (.timeMasterWrite s.dev.tim.masterSt) s s.dev ∧
    (∀ st : BitVec 10, st ≠ s.dev.tim.masterSt →
      RunsTo (.timeMasterWrite st) s (referred { s.dev with tim := { s.dev.tim with
        masterSt := st, beaconAt := s.dev.tim.raw, cw := { s.dev.tim.cw with valid := false }
        ccw := { s.dev.tim.ccw with valid := false }, skewValid := false } })))

/-- A port that has measured its phase queues, once in pdelay_ms, a request of its own seq, on the mirror lane one that
waits for mirror transmit; a port in use, its lane with block lock, answers one with the arrival it saw and the
request's seq, on the mirror lane with an answer that waits for mirror transmit, whose grant sends it at a coincidence
edge (its phase the model's choice, log 137) with the next seq of its direction, an answer with the turnaround and its
raw value; a response to the last request gives the delay, half the round trip less the turnaround, in nanoseconds, to
the port's register, and over the mirror lane to PAIR_MIR_DELAY and, at a member that is not active, once in a training,
PAIR_RAWDIFF. A response of another sequence changes no delay. The layout of type 0x2D is the model's choice (log 21),
the floor in the delay is inferred (log 15). Under these conditions on state and operands alone exec answers the next
state described, for .pdelayReqSend, .pdelayReq, .pdelayResp. -/
def Obligations.PeerDelays : Prop :=
  ∀ (s : State) (p : Sys2Proof.Port), Up s →
    let due := Elapsed s.dev s.dev.tim.pdAt[portIdx p] (s.dev.tim.pdelayMs.toNat * msTicks)
    (¬ due → RunsTo (.pdelayReqSend p) s s.dev) ∧
    ((port s.dev p).phiDone = true → ((port s.dev p).st = .training ∨ (port s.dev p).st = .up) → due →
      Runs (.pdelayReqSend p) s fun t => t.tim.pdAt[portIdx p] = some s.dev.tim.raw ∧
        (∀ x, p = sidePort x → outOf t x = outOf s.dev x ++ [(qTime, cellOf s.dev 17 0 0 (leBytes 2 1))] ∧
          t.ring.nextSeq = s.dev.ring.nextSeq + 1 ∧ OnlyRing s.dev t) ∧
        (p = .mirror → t.pair = { s.dev.pair with delayOut := s.dev.pair.delayOut ++ [.request] } ∧
          OnlyRing s.dev { t with pair := s.dev.pair })) ∧
    (∀ (c : Sys2Proof.RCell) (rc : Raw) (k : Fin 125), Sound c → (port s.dev p).blockLock = true → (port s.dev p).st ≠ .down →
      (port s.dev p).st ≠ .miswired →
      let seen := arrivalRaw (port s.dev p) rc k.val
      (p = .mirror → InOrder s c.seq) → 
      (Runs (.pdelayReq p c rc k) s fun t => t.tim = s.dev.tim ∧
        (∀ x, p = sidePort x → outOf t x = outOf s.dev x ++ [(qTime, cellOf s.dev 18 0 0 (leBytes 2 1 ++ leBytes 6 0 ++
          leBytes 8 (seen % 18446744073709551616).toNat ++ leBytes 2 c.seq.toNat))] ∧
          t.ring.nextSeq = s.dev.ring.nextSeq + 1 ∧ t.pair = s.dev.pair) ∧
        (p = .mirror → t.pair = { s.dev.pair with
          mirGot := some c.seq, delayOut := s.dev.pair.delayOut ++ [.response (BitVec.ofInt 64 seen) c.seq] }) ∧
        OnlyRing s.dev { t with pair := s.dev.pair }) ∧
      (∀ (q : BitVec 16) (t1 : Raw), pdReqOf s.dev p = some (q, t1) →
        let trip : Int := seen - (t1.toNat : Int) * 65536 - (leAt c.payload 8 8 : Int)
        let v : Int := trip * (s.dev.tim.rate.toNat : Int) / 2199023255552
        (q.toNat = leAt c.payload 16 2 → 0 ≤ v → v < 4294967296 → Runs (.pdelayResp p c rc k) s fun t =>
          pdReqOf t p = none ∧
          (p = .east → t.tim.pdEast = BitVec.ofInt 32 v ∧ t.tim.pdEastOk = true) ∧
          (p = .west → t.tim.pdWest = BitVec.ofInt 32 v ∧ t.tim.pdWestOk = true) ∧
          (p = .mirror → t.pair.mirDelay = BitVec.ofInt 32 v ∧ t.pair.rawDone = true ∧
            t.pair.rawDiff = (if s.dev.pair.rawDone = true ∨ s.dev.pair.role = .active then s.dev.pair.rawDiff
              else BitVec.ofInt 64 ((leAt c.payload 24 8 : Int) * 65536 + trip / 2 - seen)) ∧ t.tim.pdEast = s.dev.tim.pdEast ∧
            t.tim.pdWest = s.dev.tim.pdWest)) ∧
        (q.toNat ≠ leAt c.payload 16 2 → RunsTo (.pdelayResp p c rc k) s
          (if p = .mirror then heardOn (met s.dev p) c.seq else met s.dev p)))) ∧
    (∀ (x : DelayCell) (rest : List DelayCell), s.dev.pair.delayOut = x :: rest → s.dev.ring.mirror.phiDone = true →
      (s.dev.ring.mirror.st = .training ∨ s.dev.ring.mirror.st = .up) →
      (s.dev.tim.raw.setWidth 7 ≠ s.dev.lat.coinc → mirrorTurn s.dev qTime = sendMirror s.dev qTime) ∧
      (s.dev.tim.raw.setWidth 7 = s.dev.lat.coinc → ∃ t r, mirrorTurn s.dev qTime = some t ∧ t.ring.laneMirror = some r ∧
        r.ctype = 45 ∧ r.seq = s.dev.pair.mirSeq ∧ leAt r.payload 0 2 = 1 ∧
        t.pair = { s.dev.pair with delayOut := rest, mirSeq := s.dev.pair.mirSeq + 1 } ∧
        (x = .request → pdReqOf t .mirror = some (s.dev.pair.mirSeq, s.dev.tim.raw)) ∧
        (∀ (t2 : BitVec 64) (q : BitVec 16), x = .response t2 q → leAt r.payload 16 2 = q.toNat ∧
          leAt r.payload 24 8 = s.dev.tim.raw.toNat ∧
          (leAt r.payload 8 8 : Int) = ((s.dev.tim.raw.toNat : Int) * 65536 - t2.toNat) % 18446744073709551616)))

/-- ring_en 1 puts the station in TRAINING and each ring port with a module present into training; ring_en 0 puts both
ports DOWN, the join state OFF and ends every wrap. A retrain strobe on a port with its module present, on a ring port
with ring_en 1, starts its training; block lock on a training port is held; in recovery mode no port trains and the ring
is not joined (R390); the phase measured under block lock is held, and the mirror lane is then UP. That a retrain of a
side that was UP wraps it is inferred (log 23). Insertion copies the 96 bytes of A0h, which are then valid and those of
A2h not; fewer bytes are a failed transfer; a DOWN port that may train begins to, the mirror lane's with PAIR_RAWDIFF to
be measured again. A poll of a present module copies the 12 bytes of A2h with the raw value of now; fewer set i2c_err.
Under these conditions on state and operands alone exec answers the next state described, for .ringEnWrite,
.retrainEast, .retrainWest, .retrainMirror, .blockLock, .phiMeasured, .sfpInsert, .sfpPoll. -/
def Obligations.RingEnableTrainingAndModules : Prop :=
  (∀ s : State, Up s →
    (s.dev.ring.en = false → s.dev.svc.recovery = false → Runs (.ringEnWrite true) s fun t =>
      t.ring.en = true ∧ t.ring.join = .training ∧
      (s.dev.ring.east.modAbs = false → t.ring.east.st = .training ∧ t.ring.east.txDisable = false) ∧
      (s.dev.ring.west.modAbs = false → t.ring.west.st = .training ∧ t.ring.west.txDisable = false) ∧
      t.ring.mirror = s.dev.ring.mirror ∧ OnlyRing s.dev t) ∧
    (s.dev.ring.en = false → s.dev.svc.recovery = true → Runs (.ringEnWrite true) s fun t =>
      t.ring = { s.dev.ring with en := true, join := .off, joinRaw := s.dev.tim.raw } ∧ OnlyRing s.dev t) ∧
    (s.dev.ring.en = true → Runs (.ringEnWrite false) s fun t =>
      t.ring.en = false ∧ t.ring.join = .off ∧ t.ring.east.st = .down ∧ t.ring.west.st = .down ∧
      t.ring.wrapEast = false ∧ t.ring.wrapWest = false ∧ t.ring.mirror = s.dev.ring.mirror ∧ OnlyRing s.dev t) ∧
    (∀ (p : Sys2Proof.Port) (c : Sys2Proof.Instr), (p = .east ∧ c = .retrainEast) ∨ (p = .west ∧ c = .retrainWest) ∨
        (p = .mirror ∧ c = .retrainMirror) →
      (s.dev.svc.recovery = true → RunsTo c s s.dev ∧ RunsTo (.blockLock p) s s.dev) ∧
      ((s.dev.ring.en = true ∨ p = .mirror) → s.dev.svc.recovery = false → (port s.dev p).modAbs = false → Runs c s fun t =>
        (port t p).st = .training ∧ (port t p).phiDone = false ∧ (port t p).blockLock = false ∧
        (p = .east → (port s.dev p).st = .up → t.ring.wrapEast = true) ∧
        (p = .west → (port s.dev p).st = .up → t.ring.wrapWest = true) ∧
        t.sram = s.dev.sram ∧ t.flash = s.dev.flash)) ∧
    (∀ p : Sys2Proof.Port, (s.dev.ring.en = true ∨ p = .mirror) → s.dev.svc.recovery = false → (port s.dev p).modAbs = false →
      (port s.dev p).st = .training → Runs (.blockLock p) s fun t =>
        port t p = { port s.dev p with blockLock := true, rxLos := false, txFault := false } ∧ OnlyRing s.dev t) ∧
    (∀ (p : Sys2Proof.Port) (phi : BitVec 2) (u : Fin 66), (port s.dev p).st = .training →
      (port s.dev p).blockLock = true → (port s.dev p).phiDone = false →
      RunsTo (.phiMeasured p phi u) s (onPort s.dev p (fun q => { q with
        phi := phi, u := BitVec.ofNat 7 u.val, phiDone := true, st := if p = .mirror then .up else q.st })))) ∧
  (∀ (s : State) (p : Sys2Proof.Port) (bs : List Sys2Proof.Byte), Up s →
    (Runs (.sfpInsert p bs) s fun t => (port t p).modAbs = false ∧
      (bs.length = 96 → t.ring.sfp[portIdx p] = { s.dev.ring.sfp[portIdx p] with
        a0 := bs, a0Valid := true, a2Valid := false }) ∧
      (bs.length < 96 → t.ring.sfp[portIdx p] = { s.dev.ring.sfp[portIdx p] with
        a0Valid := false, a2Valid := false, i2cErr := true }) ∧
      ((s.dev.ring.en = true ∨ p = .mirror) → s.dev.svc.recovery = false → (port s.dev p).st = .down →
        (port t p).st = .training) ∧
      (t.pair.rawDone = s.dev.pair.rawDone ∨ (p = .mirror ∧ t.pair.rawDone = false)) ∧
      OnlyRing s.dev { t with pair := { t.pair with rawDone := s.dev.pair.rawDone } }) ∧
    ((port s.dev p).modAbs = false → Runs (.sfpPoll p bs) s fun t =>
      (bs.length = 12 → t.ring.sfp[portIdx p] = { s.dev.ring.sfp[portIdx p] with
        a2 := bs, a2Valid := true, a2At := s.dev.tim.raw }) ∧
      (bs.length < 12 → t.ring.sfp[portIdx p] = { s.dev.ring.sfp[portIdx p] with i2cErr := true }) ∧
      { t with ring := { t.ring with sfp := s.dev.ring.sfp } } = s.dev))

/-- A measured training port of the ring sends TRAIN cells, the mirror lane none. On a lane with block lock the second
TRAIN cell of the opposite side makes the neighbour valid; one of the same side makes the port MISWIRED and its side
wrapped; on a wrapped side that is UP the second cell that reports the neighbour UP unwraps it; each breaks a run of
SPAN_DOWN. Without block lock a TRAIN cell changes nothing. Inferred: without block lock no TRAIN cell is taken (log
128), a MISWIRED side is wrapped (log 79). A failure of a port that is not DOWN leaves it DOWN without block lock or
valid neighbour and counts it, a side of the enabled ring is wrapped, and its delay is no longer valid. A SPAN_DOWN cell
on a lane with block lock is counted up to three, the third in succession being a failure of a port not yet DOWN;
without block lock it changes nothing. A discarded cell of wrong framing is counted alone, with block lock. That without
block lock no cell is taken is inferred (log 128). Under these conditions on state and operands alone exec answers the
next state described, for .trainSend, .train, .linkFailure, .spanDown, .partialCellDiscard. -/
def Obligations.NeighboursAndSpanFailures : Prop :=
  (∀ (s : State) (at_ : Sys2Proof.Side) (station : BitVec 10) (up : Bool), Up s →
    let p := port s.dev (sidePort at_)
    let lock := p.blockLock = true
    RunsTo (.trainSend .mirror) s s.dev ∧
    (∀ opp : Bool, ¬ lock → RunsTo (.train at_ station opp up) s s.dev) ∧
    (p.st = .training → p.phiDone = true →
      (Runs (.trainSend (sidePort at_)) s fun t => t.ring.nextSeq = s.dev.ring.nextSeq + 1 ∧
        (at_ = .east → t.ring.laneEast.isSome = true) ∧ (at_ = .west → t.ring.laneWest.isSome = true) ∧
        port t .east = port s.dev .east ∧ port t .west = port s.dev .west ∧ OnlyRing s.dev t) ∧
      (lock → RunsTo (.train at_ station true up) s (onPort s.dev (sidePort at_) (fun q => { q with
        spanDowns := 0, spanDownRx := false, nbr := station, trains := if q.trains = 0 then 1 else 2, nbrValid := decide (q.trains ≠ 0) }))) ∧
      (lock → s.dev.ring.en = true → Runs (.train at_ station false up) s fun t => (port t (sidePort at_)).st = .miswired ∧
        (port t (sidePort at_)).nbr = station ∧ wrapped t at_ = true ∧ t.sram = s.dev.sram ∧ t.flash = s.dev.flash)) ∧
    (p.st = .up → wrapped s.dev at_ = true → lock →
      (∀ opp : Bool, p.unwraps = 0 → RunsTo (.train at_ station opp true) s (onPort s.dev (sidePort at_) (fun q => { q with
        spanDowns := 0, spanDownRx := false, unwraps := 1 }))) ∧
      (∀ opp : Bool, p.unwraps ≠ 0 → Runs (.train at_ station opp true) s fun t =>
        wrapped t at_ = false ∧ (port t (sidePort at_)).st = .up ∧ t.sram = s.dev.sram ∧ t.flash = s.dev.flash))) ∧
  (∀ s : State, Up s →
    (∀ (p : Sys2Proof.Port) (cause : Sys2Proof.LinkCause), (port s.dev p).st ≠ .down → Runs (.linkFailure p cause) s fun t =>
      (port t p).st = .down ∧ (port t p).blockLock = false ∧ (port t p).nbrValid = false ∧
      (port t p).linkFail = cntUp (port s.dev p).linkFail ∧
      (p = .east → s.dev.ring.en = true → t.ring.wrapEast = true) ∧
      (p = .west → s.dev.ring.en = true → t.ring.wrapWest = true) ∧
      (p = .east → t.tim.pdEastOk = false) ∧ (p = .west → t.tim.pdWestOk = false) ∧
      t.sram = s.dev.sram ∧ t.flash = s.dev.flash) ∧
    (∀ at_ : Sys2Proof.Side, (port s.dev (sidePort at_)).blockLock = false → RunsTo (.spanDown at_) s s.dev) ∧
    (∀ at_ : Sys2Proof.Side, (port s.dev (sidePort at_)).blockLock = true →
      ((port s.dev (sidePort at_)).spanDowns ≠ 2 ∨ (port s.dev (sidePort at_)).st = .down) → RunsTo (.spanDown at_) s
      (onPort s.dev (sidePort at_) (fun q => { q with
        spanDowns := if q.spanDowns = 3 then 3 else q.spanDowns + 1, spanDownRx := true }))) ∧
    (∀ at_ : Sys2Proof.Side, (port s.dev (sidePort at_)).blockLock = true → (port s.dev (sidePort at_)).spanDowns = 2 →
      (port s.dev (sidePort at_)).st ≠ .down → Runs (.spanDown at_) s fun t =>
        (port t (sidePort at_)).st = .down ∧
        (port t (sidePort at_)).linkFail = cntUp (port s.dev (sidePort at_)).linkFail ∧
        t.sram = s.dev.sram ∧ t.flash = s.dev.flash) ∧
    (∀ p : Sys2Proof.Port, (port s.dev p).blockLock = false → RunsTo (.partialCellDiscard p) s s.dev) ∧
    (∀ p : Sys2Proof.Port, (port s.dev p).blockLock = true → RunsTo (.partialCellDiscard p) s
      (onPort s.dev p (fun q => { q with framing := cntUp q.framing }))))

/-- A rejoin with a ring port UP enters JOINING with the number of the tag area, or without a valid one sets no_station.
2 ms later the station is JOINED and its TOPO is on its way, the first time with ring_ms and phase. A TOPO goes out each
second once JOINED or in COLLISION. A map entry not refreshed for 3 s is removed. The place of the epoch in TOPO is the
model's choice (log 20); a rejoin in every join state but OFF is inferred (log 80). Under these conditions on state and
operands alone exec answers the next state described, for .rejoin, .joinComplete, .topoSend, .mapAgeing. -/
def Obligations.StationJoins : Prop :=
  ∀ s : State, Up s →
    (s.dev.ring.join ≠ .off → (s.dev.ring.east.st = .up ∨ s.dev.ring.west.st = .up) → stationValid s.dev = true →
      Runs .rejoin s fun t =>
        t.ring.join = .joining ∧ t.ring.joinRaw = s.dev.tim.raw ∧ t.glb.noStation = false ∧
        t.ring.station = BitVec.ofNat 10 (fld (tagWord s.dev 0) 0 16) ∧ t.ring.nextSeq = s.dev.ring.nextSeq + 1 ∧
        OnlyRing s.dev { t with glb := { t.glb with noStation := s.dev.glb.noStation } }) ∧
    (s.dev.ring.join ≠ .off → (s.dev.ring.east.st = .up ∨ s.dev.ring.west.st = .up) → stationValid s.dev = false →
      RunsTo .rejoin s { s.dev with glb := { s.dev.glb with noStation := true } }) ∧
    (s.dev.ring.join = .joining → 2 * msTicks ≤ (s.dev.tim.raw - s.dev.ring.joinRaw).toNat → Runs .joinComplete s fun t =>
      t.ring.join = .joined ∧ t.ring.joinRaw = s.dev.tim.raw ∧
      (∀ x, wrapped s.dev x = false → ∃ c, (qHouse, c) ∈ outOf t x ∧ c.ctype = 10 ∧ c.bcast = true ∧ c.src = s.dev.ring.station ∧
        c.seq = s.dev.ring.nextSeq ∧ leAt c.payload 9 1 = s.dev.ring.epoch.toNat) ∧
      (s.dev.glb.ringMs = 0x3FF#10 → t.glb.ringMs = BitVec.ofNat 10 (min 0x3FF (s.dev.tim.raw.toNat / msTicks)) ∧
        t.glb.phase = if s.dev.glb.phase = 4 then 5 else s.dev.glb.phase) ∧
      (s.dev.glb.ringMs ≠ 0x3FF#10 → t.glb.ringMs = s.dev.glb.ringMs) ∧ t.svc.failEvent = none ∧
      t.ch = s.dev.ch ∧ t.sram = s.dev.sram ∧ t.flash = s.dev.flash ∧ t.eng = s.dev.eng ∧ t.locks = s.dev.locks) ∧
    ((s.dev.ring.join = .joined ∨ s.dev.ring.join = .collision) → Runs .topoSend s fun t =>
      t.ring.nextSeq = s.dev.ring.nextSeq + 1 ∧
      (∀ x, wrapped s.dev x = false → ∃ c, outOf t x = outOf s.dev x ++ [(qHouse, c)] ∧ c.ctype = 10 ∧ c.bcast = true ∧
        c.src = s.dev.ring.station ∧ c.seq = s.dev.ring.nextSeq ∧ leAt c.payload 9 1 = s.dev.ring.epoch.toNat) ∧
      hush t = hush s.dev) ∧
    (∀ st : BitVec 10, 3000 * msTicks ≤ (s.dev.tim.raw - (mapOf s.dev st).fresh).toNat → Runs (.mapAgeing st) s fun t =>
      mapOf t st = {} ∧ (∀ m : BitVec 10, m ≠ st → mapOf t m = mapOf s.dev m) ∧ OnlyRing s.dev t)

/-- A sound TOPO of another station refreshes its map entry with the flags and epoch it carries. A sound OWNER_RESET of
another station breaks every lock that station owns and ends its update session. A sound later ROUTE_UPDATE writes the
pair's record with active, shadow, epoch and castled map. A cell that fails its CRC is counted and changes no record; on
a lane without block lock no cell arrives. The places of the flags and the epoch in TOPO are the model's choice (log
20); that no cell arrives without block lock is inferred (log 128). Under these conditions on state and operands alone
exec answers the next state described, for .ownerReset, .topo, .cellArrival, .routeUpdate. -/
def Obligations.BroadcastsLearned : Prop :=
  ∀ (s : State) (at_ : Sys2Proof.Side) (c : Sys2Proof.RCell), Up s → s.dev.ring.join ≠ .off →
    ((port s.dev (sidePort at_)).blockLock = false →
      RunsTo (.topo at_ c) s s.dev ∧ RunsTo (.ownerReset at_ c) s s.dev ∧ RunsTo (.routeUpdate at_ c) s s.dev ∧
      RunsTo (.cellArrival at_ c) s s.dev) ∧
    ((port s.dev (sidePort at_)).blockLock = true →
    (Sound c → c.src ≠ s.dev.ring.station → Runs (.topo at_ c) s fun t =>
      (mapOf t c.src).epoch = BitVec.ofNat 8 (leAt c.payload 9 1) ∧ (mapOf t c.src).fresh = s.dev.tim.raw ∧
      (mapOf t c.src).eastDown = decide (leAt c.payload 8 1 % 2 = 1) ∧
      (mapOf t c.src).westDown = decide (leAt c.payload 8 1 / 2 % 2 = 1) ∧
      t.sram = s.dev.sram ∧ t.flash = s.dev.flash ∧ t.tag = s.dev.tag) ∧
    (Sound c → c.src ≠ s.dev.ring.station → s.dev.pair.role ≠ .shadow → Runs (.ownerReset at_ c) s fun t =>
      (∀ i : LockNo, (lockAt s.dev i.val).held = true → (lockAt s.dev i.val).owner = c.src →
        (lockAt t i.val).held = false ∧ (lockAt t i.val).broken = true ∧
        (lockAt t i.val).cnt = cntUp (lockAt s.dev i.val).cnt) ∧
      (∀ i : LockNo, ((lockAt s.dev i.val).held = false ∨ (lockAt s.dev i.val).owner ≠ c.src) →
        lockAt t i.val = lockAt s.dev i.val) ∧
      (∀ x, s.dev.svc.session = some x → x.owner = c.src.setWidth 11 → t.svc.session = none) ∧
      t.ch = s.dev.ch ∧ t.sram = s.dev.sram ∧ t.flash = s.dev.flash ∧ t.eng = s.dev.eng) ∧
    (Sound c → c.src ≠ s.dev.ring.station → freshCast s.dev c = true → leAt c.payload 2 2 < 512 → s.dev.ring.retry = [] →
      Runs (.routeUpdate at_ c) s fun t =>
        pairOf t (leAt c.payload 2 2) = { active := BitVec.ofNat 10 (leAt c.payload 4 2), shadow := BitVec.ofNat 10 (leAt c.payload 6 2), epoch := BitVec.ofNat 8 (leAt c.payload 8 1), valid := true, castled := BitVec.ofNat 64 (leAt c.payload 16 8) } ∧
        OnlyRing s.dev t) ∧
    (c.crc ≠ cellCrc c →
      let bad := onPort (met s.dev (sidePort at_)) (sidePort at_) (fun p => { p with crcErr := cntUp p.crcErr })
      RunsTo (.topo at_ c) s bad ∧ RunsTo (.ownerReset at_ c) s bad ∧ RunsTo (.routeUpdate at_ c) s bad ∧
      RunsTo (.cellArrival at_ c) s bad))

/-- A sound read, write or lock request addressed to this joined station on a lane with block lock, its epoch in force
and room in the drop queue of its side, stands last in that queue. One of another epoch goes back to its source with its
payload and seq, its type 0x30 on and the epoch in force. A cell in the egress buffer that the join state allows leaves
an unwrapped side by its lane with its CRC and the buffer is free; a beacon or peer-delay cell stays there at every T
tick that is no coincidence edge (its phase the model's choice, log 137). One that the join state forbids by then is
dropped, and the slot of its engine is free (the model's choice, log 159). The departure of an NSP_RESP may set the
moment of a restart (log 161). Under these conditions on state and operands alone exec answers the next state described,
for .cellArrival, .cellEgress. -/
def Obligations.CellsDeliveredAndSent : Prop :=
  ∀ (s : State) (at_ : Sys2Proof.Side), Up s →
    (∀ c : Sys2Proof.RCell, Sound c → (port s.dev (sidePort at_)).blockLock = true → s.dev.ring.join = .joined → c.src ≠ s.dev.ring.station →
      c.dest = s.dev.ring.station → c.bcast = false → c.pair = false →
      (c.ctype = 1 ∨ c.ctype = 3 ∨ c.ctype = 5 ∨ c.ctype = 6) →
      (c.epoch = s.dev.ring.epoch → (dropOf s.dev at_).length < 64 →
        RunsTo (.cellArrival at_ c) s (setDrop (met s.dev (sidePort at_)) at_ (dropOf s.dev at_ ++ [hopped c]))) ∧
      (c.epoch ≠ s.dev.ring.epoch → Runs (.cellArrival at_ c) s fun t => dropOf t at_ = dropOf s.dev at_ ∧
        (∀ x, routeTo s.dev c.src = some x → wrapped s.dev x = false → outOf t x = outOf s.dev x ++ [(qDrop at_, { hopped c with
          ctype := c.ctype + 0x30, epoch := s.dev.ring.epoch, src := s.dev.ring.station, dest := c.src, hop := 0 })]) ∧
        OnlyRing s.dev t)) ∧
    (∀ c : Sys2Proof.RCell, bufOf s.dev at_ = some c → (c.ctype = 16 ∨ c.ctype = 17 ∨ c.ctype = 18) →
      mayLeave s.dev at_ c.ctype = true → s.dev.tim.raw.setWidth 7 ≠ s.dev.lat.coinc → RunsTo (.cellEgress at_) s s.dev) ∧
    (∀ c : Sys2Proof.RCell, bufOf s.dev at_ = some c → wrapped s.dev at_ = false → mayLeave s.dev at_ c.ctype = true →
      ((c.ctype ≠ 16 ∧ c.ctype ≠ 17 ∧ c.ctype ≠ 18) ∨ s.dev.tim.raw.setWidth 7 = s.dev.lat.coinc) → Runs (.cellEgress at_) s fun t =>
      bufOf t at_ = none ∧
      (let sent := { c with payload := egressBody s.dev c }
       let out := some { sent with crc := cellCrc sent }
       (at_ = .east → t.ring.laneEast = out) ∧ (at_ = .west → t.ring.laneWest = out)) ∧
      (c.ctype = 5 → (∀ k : EngNo, (s.dev.eng[k].egress.map (·.seq)) = some c.seq → t.eng[k].egress = none)) ∧
      (c.ctype ≠ 14 → t.svc = s.dev.svc) ∧ OnlyRing s.dev { t with eng := s.dev.eng, svc := { t.svc with restartDue := s.dev.svc.restartDue } }) ∧
    (∀ c : Sys2Proof.RCell, bufOf s.dev at_ = some c → mayLeave s.dev at_ c.ctype = false → Runs (.cellEgress at_) s fun t =>
      bufOf t at_ = none ∧ t.ring.laneEast = s.dev.ring.laneEast ∧ t.ring.laneWest = s.dev.ring.laneWest ∧
      (c.ctype = 5 → (∀ k : EngNo, (s.dev.eng[k].egress.map (·.seq)) = some c.seq → t.eng[k].egress = none)) ∧
      (c.ctype ≠ 14 → t.svc = s.dev.svc) ∧ OnlyRing s.dev { t with eng := s.dev.eng, svc := { t.svc with restartDue := s.dev.svc.restartDue } })

/-- A read, write, posted write or lock request at the front of a side's drop queue leaves it and is performed for its
source, once all it takes of the concourse is the drop queue's for the asking; else it stays and waits, the concourse
alone changed. A malformed read or write does nothing but answer FORMAT, a malformed posted write nothing; with a
misaligned offset, which the rules leave as an access of R4, each sets bad_access (inferred, log 114). EVENT cells that
then stand in front leave (inferred, log 44). A request of another type at the front is not touched. Under these
conditions on state and operands alone exec answers the next state described, for .rdReq, .wrReq, .wrPosted, .lockReq.
-/
def Obligations.RequestsServed : Prop :=
  ∀ (s : State) (at_ : Sys2Proof.Side) (c : Sys2Proof.RCell) (rest : List Sys2Proof.RCell), Up s →
    dropOf s.dev at_ = c :: rest →
    let q : Requester := (qDrop at_, .whole)
    let offset := leAt c.payload 0 4
    let words := leAt c.payload 4 1 + 1
    let bad := fun (most : Nat) => offset % 4 ≠ 0 ∨ 2 ^ 30 ≤ offset ∨ most < words
    let left := setDrop (noWait s.dev q .drop) at_ rest
    let marked := if offset % 4 ≠ 0 then badAccess left (.ring c.src) offset else left
    let under := fun (rs : List ResNo) => setDrop (useAll s.dev q .drop rs) at_ rest
    let rd := readManyNeeds s.dev offset words
    let wr := writeManyNeeds s.dev offset (writeData c)
    (c.ctype = 1 → bad 64 → RunsTo (.rdReq at_) s (sendResponse marked (qDrop at_) c 2 2 [])) ∧
    (c.ctype = 3 → bad 14 → RunsTo (.wrReq at_) s (sendResponse marked (qDrop at_) c 4 2 [])) ∧
    (c.ctype = 5 → bad 14 → RunsTo (.wrPosted at_) s marked) ∧
    (c.ctype = 1 → ¬ bad 64 → canAll s.dev q rd = true → RunsTo (.rdReq at_) s
      (let (ws, d) := readMany (under rd) (.ring c.src) offset words
       readCells d at_ c (if ws.all (fun w => w.2) then 0 else 1) (ws.map (fun w => w.1)))) ∧
    (c.ctype = 3 → ¬ bad 14 → canAll s.dev q wr = true → RunsTo (.wrReq at_) s
      (let (ok, d) := writeMany (under wr) (.ring c.src) offset (writeData c)
       if ok then sendResponse d (qDrop at_) c 4 0 (c.payload.take 5) else sendResponse d (qDrop at_) c 4 1 [])) ∧
    (c.ctype = 5 → ¬ bad 14 → canAll s.dev q wr = true →
      RunsTo (.wrPosted at_) s (writeMany (under wr) (.ring c.src) offset (writeData c)).2) ∧
    (c.ctype = 1 → ¬ bad 64 → canAll s.dev q rd = false → Runs (.rdReq at_) s fun t =>
      (⟨q, .drop, rd⟩ : ConWait) ∈ t.con.waits ∧ OnlyBanks s.dev t) ∧
    ((c.ctype = 3 ∨ c.ctype = 5) → ¬ bad 14 → canAll s.dev q wr = false →
      Runs (if c.ctype = 3 then .wrReq at_ else .wrPosted at_) s fun t => (⟨q, .drop, wr⟩ : ConWait) ∈ t.con.waits ∧ OnlyBanks s.dev t) ∧
    (c.ctype = 6 → 0 < leAt c.payload 0 1 → leAt c.payload 0 1 ≤ 5 → leAt c.payload 2 2 ≠ 0 → s.dev.pair.role ≠ .shadow →
      let i : LockNo := Fin.ofNat 256 (leAt c.payload 1 1)
      (canAll s.dev q [lockTable] = true → RunsTo (.lockReq at_) s
        (let (code, d) := lockOp (under [lockTable]) i (leAt c.payload 0 1) (BitVec.ofNat 16 (leAt c.payload 2 2)) c.src
         sendResponse d (qDrop at_) c 7 0 (lockBody d i code))) ∧
      (canAll s.dev q [lockTable] = false → Runs (.lockReq at_) s fun t =>
        (⟨q, .drop, [lockTable]⟩ : ConWait) ∈ t.con.waits ∧ OnlyBanks s.dev t)) ∧
    (c.ctype ≠ 1 → RunsTo (.rdReq at_) s s.dev) ∧ (c.ctype ≠ 3 → RunsTo (.wrReq at_) s s.dev) ∧
    (c.ctype ≠ 5 → RunsTo (.wrPosted at_) s s.dev) ∧ (c.ctype ≠ 6 → RunsTo (.lockReq at_) s s.dev) ∧
    (∀ rs : List ResNo, OnlyBanks s.dev (useAll s.dev q .drop rs)) ∧
    (c.ctype = 6 → leAt c.payload 0 1 = 1 → leAt c.payload 2 2 ≠ 0 → s.dev.pair.role ≠ .shadow →
      let i : LockNo := Fin.ofNat 256 (leAt c.payload 1 1)
      canAll s.dev q [lockTable] = true → (lockAt s.dev i.val).held = false → Runs (.lockReq at_) s fun t =>
        lockAt t i.val = { lockAt s.dev i.val with
          owner := c.src, held := true, leaseMs := BitVec.ofNat 16 (leAt c.payload 2 2)
          leaseEnd := s.dev.tim.raw + BitVec.ofNat 64 (leAt c.payload 2 2 * 160000) } ∧ dropOf t at_ = rest.dropWhile (fun x => decide (x.ctype = 8)) ∧
        (∀ x, routeTo s.dev c.src = some x → wrapped s.dev x = false → ∃ y, (qDrop at_, y) ∈ outOf t x ∧ y.ctype = 7 ∧
          y.dest = c.src ∧ y.seqEcho = c.seq ∧ y.epoch = 0 ∧ leAt y.payload 1 1 = i.val ∧
          leAt y.payload 0 1 = if (lockAt s.dev i.val).broken then 2 else 1) ∧
        (∀ j : LockNo, j ≠ i → lockAt t j.val = lockAt s.dev j.val))

/-- With block lock on a ring lane, in JOINING or JOINED, a write acknowledgement, a lock response and the last part of
a read response with the seq of an outstanding request of the housekeeper end it with their status and data, its tag is
free and what waited for a tag goes on; an earlier part is kept. The first return for a role epoch resends the request
once, with the new epoch: a station-space cell at once, a pair cell once RNG_PAIRp holds that epoch, until then it
waits; without a route it ends with NO_ROUTE. A second return ends it with ROLE_CHANGED, as does the end of the wait of
2 ms; no answer within tmo_ms with TIMEOUT. Without an outstanding request, without block lock or in another join state
nothing changes. Under these conditions on state and operands alone exec answers the next state described, for
.roleEpochReturn, .retryWaitExpiry, .rdResp, .wrAck, .lockResp, .requestTimeout. -/
def Obligations.OwnRequestsEnd : Prop :=
  ∀ (s : State) (r : OutReq), Up s → s.dev.ring.reqs = [r] → r.why = .other →
    let ended := fun (status : BitVec 4) (data : List Word) =>
      checkKick (nspKick { s.dev with ring := { s.dev.ring with reqs := [], done := some ⟨r.seq, status, data⟩ } })
    let lane := (s.dev.ring.east.blockLock = true ∨ s.dev.ring.west.blockLock = true) ∧
      (s.dev.ring.join = .joining ∨ s.dev.ring.join = .joined)
    (∀ c : Sys2Proof.RCell, lane → c.seqEcho = r.seq → c.ctype = 4 → r.cell.ctype = 3 →
      RunsTo (.wrAck c) s (ended (BitVec.ofNat 4 (c.epoch.toNat % 16)) [])) ∧
    (∀ c : Sys2Proof.RCell, lane → c.seqEcho = r.seq → c.ctype = 7 → r.cell.ctype = 6 →
      RunsTo (.lockResp c) s (ended (BitVec.ofNat 4 (c.epoch.toNat % 16)) (wordsOf (c.payload.take 12)))) ∧
    (∀ c : Sys2Proof.RCell, lane → c.seqEcho = r.seq → c.ctype = 2 → r.cell.ctype = 1 →
      let count := leAt r.cell.payload 4 1 + 1
      let words := wordsOf (fitTo 64 c.payload)
      (r.parts = [] → c.epoch.toNat < 2 →
        RunsTo (.rdResp c) s (ended (BitVec.ofNat 4 c.epoch.toNat) (r.got ++ words.take count))) ∧
      (r.parts = [] → (c.epoch = 0x40 ∨ c.epoch = 0x41) → RunsTo (.rdResp c) s
        { s.dev with ring := { s.dev.ring with reqs := [{ r with parts := [(0, words.take count)] }] } }) ∧
      (∀ ws, r.parts = [(0, ws)] → (c.epoch = 0x50 ∨ c.epoch = 0x51) → RunsTo (.rdResp c) s
        (ended (BitVec.ofNat 4 (c.epoch.toNat % 16)) (r.got ++ (ws ++ words.take (count - 16)))))) ∧
    (∀ c : Sys2Proof.RCell, (¬ lane ∨ c.seqEcho ≠ r.seq) →
      RunsTo (.wrAck c) s s.dev ∧ RunsTo (.lockResp c) s s.dev ∧ RunsTo (.rdResp c) s s.dev) ∧
    (reached s.dev.tim.raw r.due = true → s.dev.ring.retry = [] → RunsTo (.requestTimeout r.seq) s (ended 8 [])) ∧
    (∀ c : Sys2Proof.RCell, lane → c.seq = r.seq → c.retried = true → c.ctype = 0x31 → RunsTo (.roleEpochReturn c) s (ended 5 [])) ∧
    (∀ c : Sys2Proof.RCell, lane → c.seq = r.seq → c.retried = false → c.ctype = 0x31 →
      let again := { c with ctype := 1, retried := true, src := s.dev.ring.station, hop := 0, wrapOdd := false }
      (c.pair = false → ∀ x, routeTo s.dev c.src = some x →
        RunsTo (.roleEpochReturn c) s (queueOut s.dev qHouse x { again with dest := c.src })) ∧
      (c.pair = false → routeTo s.dev c.src = none → RunsTo (.roleEpochReturn c) s (ended 7 [])) ∧
      (c.pair = true →
        let e := pairOf s.dev (r.cell.dest.toNat % 512)
        ((e.valid = true ∧ e.epoch = c.epoch) → RunsTo (.roleEpochReturn c) s (resendPair s.dev { again with dest := r.cell.dest })) ∧
        (¬ (e.valid = true ∧ e.epoch = c.epoch) → RunsTo (.roleEpochReturn c) s { s.dev with ring := { s.dev.ring with
          retry := s.dev.ring.retry ++ [({ again with dest := r.cell.dest }, c.epoch, s.dev.tim.raw)] } }))) ∧
    (∀ (c : Sys2Proof.RCell) (e : BitVec 8) (at_ : Raw), s.dev.ring.retry = [(c, e, at_)] → c.seq = r.seq → c.ctype = 1 →
      2 * msTicks ≤ (s.dev.tim.raw - at_).toNat →
      RunsTo (.retryWaitExpiry r.seq) s
        (checkKick (nspKick { s.dev with ring := { s.dev.ring with reqs := [], done := some ⟨r.seq, 5, []⟩, retry := [] } })))

/-- By this station at a member that is no shadow, a lease not at its end: ACQUIRE takes a free lock, held by this
station with its lease (result 1, or 2 with the mark set, which it keeps); on one held by another it is DENIED (3).
RELEASE by the owner frees it (4), RENEW restarts the lease (5), CLEAR_BROKEN clears the mark (7); by another they
answer NOT_OWNER (6). BREAK frees it, sets the mark and counts (8). The operation takes the lock table, and waits while
that is not its requester's (R256; the requester of a host's access is the model's choice, log 133). At the lease end a
held lock is free with its mark set, and counted. At a shadow an operation through LCKi_OP leaves result NONE and
nothing else, and no lease expires. Under these conditions on state and operands alone exec answers the next state
described, for .lockAcquire, .lockRelease, .lockRenew, .lockClearBroken, .lockBreak, .leaseExpiry. -/
def Obligations.FabricLocks : Prop :=
  (∀ (s : State) (src : Sys2Proof.Src) (i : LockNo) (lease : BitVec 16), Up s → s.dev.pair.role ≠ .shadow → lease ≠ 0 →
    let l := lockAt s.dev i.val
    (l.held = true → reached s.dev.tim.raw l.leaseEnd = false) →
    let mine := l.held = true ∧ l.owner = s.dev.ring.station
    let taken := fun (code : BitVec 4) => { l with
      owner := s.dev.ring.station, held := true, leaseMs := lease
      leaseEnd := rawAdd s.dev.tim.raw (lease.toNat * msTicks), result := code, opLease := lease }
    let left := fun (x : Lock) (t : Device) => lockAt t i.val = x ∧
      (∀ j : LockNo, j ≠ i → lockAt t j.val = lockAt s.dev j.val) ∧
      noBanks (hush { t with locks := s.dev.locks }) = noBanks (hush s.dev)
    let served := fun (op : Nat) => Served s.dev (.lock src i op lease)
    let said := fun (code : BitVec 4) => { l with result := code, opLease := lease }
    (served 1 → l.held = false → Runs (.lockAcquire src i lease) s (left (taken (if l.broken then 2 else 1)))) ∧
    (served 1 → mine → Runs (.lockAcquire src i lease) s (left (taken 5))) ∧
    (served 1 → l.held = true → l.owner ≠ s.dev.ring.station → Runs (.lockAcquire src i lease) s (left (said 3))) ∧
    (served 2 → mine → Runs (.lockRelease src i lease) s (left { said 4 with owner := 0, held := false, leaseMs := 0, leaseEnd := 0 })) ∧
    (served 3 → mine → Runs (.lockRenew src i lease) s (left (taken 5))) ∧
    (served 4 → mine → Runs (.lockClearBroken src i lease) s (left { said 7 with broken := false })) ∧
    (¬ mine → (served 2 → Runs (.lockRelease src i lease) s (left (said 6))) ∧
      (served 3 → Runs (.lockRenew src i lease) s (left (said 6))) ∧
      (served 4 → Runs (.lockClearBroken src i lease) s (left (said 6)))) ∧
    (served 5 → Runs (.lockBreak src i lease) s (left { said 8 with
      owner := 0, held := false, leaseMs := 0, leaseEnd := 0, broken := true, cnt := cntUp l.cnt })) ∧
    (¬ served 1 → Runs (.lockAcquire src i lease) s (Waits s.dev (.lock src i 1 lease))) ∧
    (¬ served 5 → Runs (.lockBreak src i lease) s (Waits s.dev (.lock src i 5 lease)))) ∧
  (∀ (s : State) (i : LockNo), Up s →
    let l := lockAt s.dev i.val
    (s.dev.pair.role ≠ .shadow → l.held = true → reached s.dev.tim.raw l.leaseEnd = true → Runs (.leaseExpiry i) s fun t =>
      lockAt t i.val = { l with owner := 0, held := false, leaseMs := 0, leaseEnd := 0, broken := true, cnt := cntUp l.cnt } ∧
      (∀ j : LockNo, j ≠ i → lockAt t j.val = lockAt s.dev j.val) ∧ hush { t with locks := s.dev.locks } = hush s.dev) ∧
    (s.dev.pair.role = .shadow → RunsTo (.leaseExpiry i) s s.dev ∧
      ∀ (src : Sys2Proof.Src) (lease : BitVec 16), Served s.dev (.lock src i 1 lease) →
        Runs (.lockAcquire src i lease) s (OnlyBanks { s.dev with locks := tabSet {} s.dev.locks i.val { l with result := 0 } })))

/-- A request by a part that holds nothing, of a unit with none outstanding there, joins the resource's queue, but not
that of a part of a channel unit or an engine that awaits another resource (R268, R462); one against rank order is
recorded as an order fault and takes no place; a part that holds another resource requests no add port. A decision
chooses among the pending requesters, on a frozen resource the loader alone, the one that the slot entry at slot_ptr
names, else the first in the background ranking; slot_ptr moves on by one, 0 after tables were released. The chosen one
is the next owner of a held resource; on an idle one its data phase begins: it owns a bank or the lock table it still
needs, with mirror transmit its cell is sent, and an add port whose buffer is free copies its cell there. A release ends
the owner's hold; the decided next owner's data phase begins, or a sibling that waited inside requests. Work that waits
is then tried again (conGo). The host's freeze is held. Under these conditions on state and operands alone exec answers
the next state described, for .concourseRequest, .concourseDecision, .concourseRelease, .conFreezeWrite. -/
def Obligations.ConcourseTurns : Prop :=
  ∀ (s : State) (r : ResNo), Up s →
    let a := arbOf s.dev r
    (∀ (q : Fin 78) (part : Sys2Proof.ConPart), heldBy s.dev (q, part) = [] → outstanding s.dev q r = false →
      (q, part) ∉ a.inside → (q.val < 72 → ∀ h : ResNo, h ≠ r → awaits s.dev (q, part) h = false) →
      RunsTo (.concourseRequest q part r) s (onArb s.dev r (fun a => { a with pending := a.pending ++ [(q, part)] }))) ∧
    (∀ (q : Fin 78) (part : Sys2Proof.ConPart) (h : ResNo), heldBy s.dev (q, part) = [] → q.val < 72 → h ≠ r →
      awaits s.dev (q, part) h = true → RunsTo (.concourseRequest q part r) s s.dev) ∧
    (∀ (q : Fin 78) (part : Sys2Proof.ConPart) (top : ResNo), topOf (heldBy s.dev (q, part)) = some top →
      (rankOf r ≤ rankOf top → (q.val < 64 ∨ 72 ≤ q.val) → RunsTo (.concourseRequest q part r) s
        { s.dev with con := { s.dev.con with
          faultQ := BitVec.ofNat 7 q.val, faultHeld := BitVec.ofNat 5 top.val, faultReq := BitVec.ofNat 5 r.val
          faultSeen := true, faultCnt := cntUp s.dev.con.faultCnt } }) ∧
      (rankOf top < rankOf r → (r.val = 17 ∨ r.val = 18) → RunsTo (.concourseRequest q part r) s s.dev)) ∧
    let list := if frozen s.dev r = true then a.pending.filter (fun x => decide (x.1 = 76)) else a.pending
    let d0 := if a.takeStaged = true then takeTables s.dev r else s.dev
    let slot := slotAt d0.con.slots r.val (arbOf d0 r).slotPtr.toNat
    let rank := fun (x : Requester) => 128 * (posAt d0.con.ranks r.val x.1.val).toNat + x.1.val
    let side : Sys2Proof.Side := if r.val = 17 then .east else .west
    let port := r.val = 17 ∨ r.val = 18
    let may := a.next = none ∧ (port → a.owner = none ∧ bufOf s.dev side = none)
    ((¬ may ∨ list = []) → RunsTo (.concourseDecision r) s (conGo s.dev)) ∧
    (∀ x : Requester, may →
      (list.find? (fun y => decide (y.1.val = slot.toNat)) = some x ∨
        (x ∈ list ∧ (∀ y ∈ list, y.1.val ≠ slot.toNat) ∧ ∀ y ∈ list, y ≠ x → rank x < rank y)) →
      let d := onArb d0 r (fun a => { a with
        slotPtr := a.slotPtr + 1, pending := a.pending.filter (fun y => decide (y.1 ≠ x.1)) })
      let idle := askAgain (onArb d r (fun a => { a with owner := none })) r x.1
      (a.owner ≠ none → RunsTo (.concourseDecision r) s (conGo (onArb d r (fun a => { a with next := some x })))) ∧
      (a.owner = none → r.val < 16 → RunsTo (.concourseDecision r) s
        (conGo (if needsBank d r x then onArb d r (fun a => { a with owner := some x }) else idle))) ∧
      (a.owner = none → r.val = 16 → RunsTo (.concourseDecision r) s
        (conGo ((mirrorTurn (onArb d r (fun a => { a with owner := some x })) x.1).getD idle))) ∧
      (a.owner = none → r.val = 19 → RunsTo (.concourseDecision r) s
        (conGo (if waitsFor d x r then onArb d r (fun a => { a with owner := some x }) else idle))) ∧
      (a.owner = none → port → RunsTo (.concourseDecision r) s
        (conGo (match takeFirst (outOf s.dev side) x.1 (fun c => mayLeave s.dev side c.ctype) with
          | none => idle
          | some (c, cs) =>
            let e := onArb d r (fun a => { a with owner := some x })
            topoLeft (if r.val = 17 then { e with ring := { e.ring with outEast := cs, bufEast := some c } }
              else { e with ring := { e.ring with outWest := cs, bufWest := some c } }) side c.ctype)))) ∧
    let w := conGo s.dev
    ((arbOf w r).owner = none → RunsTo (.concourseRelease r) s (conGo w)) ∧
    (∀ x, (arbOf w r).owner = some x →
      let e := onArb w r (fun a => { a with owner := none, next := none })
      ((arbOf w r).inside.all (fun y => decide (y.1 ≠ x.1)) = true → (arbOf w r).next = none →
        RunsTo (.concourseRelease r) s (conGo (portAsks e x.1))) ∧
      (∀ y, (arbOf w r).inside.all (fun y => decide (y.1 ≠ x.1)) = true → (arbOf w r).next = some y →
        RunsTo (.concourseRelease r) s (conGo (portAsks (dataPhase e r y) x.1))) ∧
      (∀ z zs, (arbOf w r).next = none → (arbOf w r).inside = z :: zs → z.1 = x.1 → outstanding e x.1 r = false →
        RunsTo (.concourseRelease r) s (conGo (portAsks (onArb e r (fun a => { a with
          pending := a.pending ++ [z], inside := a.inside.filter (fun v => decide (v ≠ z)) })) x.1)))) ∧
    (∀ mask : BitVec 20, RunsTo (.conFreezeWrite mask) s
      { s.dev with con := { s.dev.con with freeze := mask } })

/-- A declared member with the mirror lane UP queues its HEARTBEAT, once in 16 000 T cycles; it carries the role
preference, fc_local, PAIR_RAWDIFF and the number of its resync (the model's choice, logs 27, 105). A HEARTBEAT in order
sets hb_ok, waits behind the cells that wait, else is held with its fc_local map, and gives the active that hears the
shadow its PAIR_RAWDIFF negated; at an unpaired module, in step with a partner in step of the complementary role, or at
an active that hears an active of an earlier pair epoch, nothing else changes; of another plan digest it leads to
MISMATCH, as do two active pair epochs half the count apart (the model's choice, log 108). Without block lock it changes
nothing (log 128, inferred). A loss clears hb_ok and counts; at an active with no ring side UP every token is cleared,
no channel is held, and the state is ISOLATED; at a shadow with none it is ISOLATED. A second loss changes nothing. With
a ring check outstanding its timeout makes the shadow ACTIVE and PARTNER_LOST with the pair epoch one on, its castled
map empty and promoted set; the active stays ACTIVE and is PARTNER_LOST. Without one it changes nothing. A shadow in
SPLIT_SUSPECT whose check is outstanding waits for it, and so does an active in step. That the promoted shadow is
PARTNER_LOST is inferred (log 28). Under these conditions on state and operands alone exec answers the next state
described, for .heartbeatSend, .heartbeat, .heartbeatLoss, .checkTimeout, .splitCheckTimer. -/
def Obligations.HeartbeatLossAndRingChecks : Prop :=
  (∀ s : State, Up s →
    let p := s.dev.pair
    let heard := fun (q : BitVec 16) (m : HbMsg) => { s.dev with pair := { p with
      mirGot := some q, hbOk := true, peer := some m, peerLocal := m.fcLocal
      rawDiff := if p.role = .active ∧ m.role = 2 then -m.rawDiff else p.rawDiff } }
    let unlike := fun (q : BitVec 16) (m : HbMsg) => { s.dev with pair := { (heard q m).pair with
      st := .mismatch, evt := setBit p.evt 6, asked := false, peerCastling := false } }
    let noRing := s.dev.ring.east.st ≠ .up ∧ s.dev.ring.west.st ≠ .up
    let due := Elapsed s.dev p.beatAt 16000
    (p.role ≠ .unpaired → s.dev.ring.mirror.st = .up → due → RunsTo .heartbeatSend s { s.dev with pair := { p with
      beatAt := some s.dev.tim.raw
      mirOut := p.mirOut ++ [(qHouse, .heartbeat ⟨roleCode p.role, pairStCode p.st, p.epoch, s.dev.ring.epoch, p.digest,
        p.pref, p.fcLocal, p.rawDiff, p.resyncNo⟩)] } }) ∧
    ((p.role = .unpaired ∨ s.dev.ring.mirror.st ≠ .up ∨ ¬ due) → RunsTo .heartbeatSend s s.dev) ∧
    (∀ (q : BitVec 16) (m : HbMsg), (s.dev.ring.mirror.blockLock = false → RunsTo (.heartbeat q m) s s.dev) ∧
      (InOrder s q → p.mrxQ ≠ [] → RunsTo (.heartbeat q m) s { s.dev with pair := { p with
        mirGot := some q, hbOk := true, mrxQ := p.mrxQ ++ [.heartbeat m] } }) ∧ (InOrder s q → MrxIdle s →
      (p.role = .unpaired → RunsTo (.heartbeat q m) s (heard q m)) ∧
      (p.st = .inStep → m.digest = p.digest → m.state ≠ 1 → ((p.role = .active ∧ m.role = 2) ∨ (p.role = .shadow ∧ m.role = 1)) →
        RunsTo (.heartbeat q m) s (heard q m)) ∧
      (p.role = .active → p.fenced = false → m.role = 1 → m.digest = p.digest →
        (laterThan p.epoch m.pairEpoch = true → RunsTo (.heartbeat q m) s (heard q m)) ∧
        (m.pairEpoch = p.epoch + 128 → p.st ≠ .mismatch → RunsTo (.heartbeat q m) s (unlike q m))) ∧
      ((p.role = .shadow ∨ (p.role = .active ∧ p.fenced = false ∧ m.role ≠ 1)) → m.digest ≠ p.digest → p.st ≠ .mismatch →
        RunsTo (.heartbeat q m) s (unlike q m)))) ∧
    (p.hbOk = false → RunsTo .heartbeatLoss s s.dev) ∧
    (p.hbOk = true → (p.role = .active ∨ p.role = .shadow) → Runs .heartbeatLoss s fun t =>
      t.pair.hbOk = false ∧ t.pair.hbLoss = cntUp p.hbLoss ∧
      (noRing → t.pair.st = .isolated ∧ t.pair.role = p.role ∧
        (p.role = .active → t.pair.fenced = true ∧ t.pair.held = 0 ∧ (Vaon s → ∀ n : ChanNo, (chan t n).line.token = false))) ∧
      t.sram = s.dev.sram ∧ t.flash = s.dev.flash ∧ t.tim = s.dev.tim)) ∧
  (∀ s : State, Up s →
    let p := s.dev.pair
    (p.check = none → RunsTo .checkTimeout s s.dev) ∧
    (∀ q, p.check = some q → p.role = .shadow → p.st ≠ .mismatch → Runs .checkTimeout s fun t =>
      t.pair.role = .active ∧ t.pair.st = .partnerLost ∧ t.pair.check = none ∧ t.pair.castled = 0 ∧
      t.pair.epoch = p.epoch + 1 ∧ t.ring.epoch = s.dev.ring.epoch + 1 ∧ t.pair.evt.getLsbD 0 = true ∧
      (∀ r ∈ t.ring.reqs, r.seq ≠ q.1) ∧ t.sram = s.dev.sram ∧ t.flash = s.dev.flash ∧ t.tim = s.dev.tim) ∧
    (∀ q, p.check = some q → p.role = .active → Runs .checkTimeout s fun t =>
      t.pair.role = .active ∧ t.pair.st = .partnerLost ∧ t.pair.check = none ∧ t.pair.castling = none ∧
      t.pair.epoch = p.epoch ∧ t.sram = s.dev.sram ∧ t.flash = s.dev.flash ∧ t.tim = s.dev.tim) ∧
    (p.role = .shadow → p.check ≠ none → RunsTo .splitCheckTimer s s.dev) ∧
    (p.role = .active → p.st = .inStep → RunsTo .splitCheckTimer s s.dev) ∧
    (∀ st ep dest side, p.role = .shadow → p.st = .splitSuspect → p.check = none →
      p.checkDue = false → (s.dev.ring.east.st = .up ∨ s.dev.ring.west.st = .up) → s.dev.ring.reqs.length < 16 →
      addressed s.dev false p.partner.toNat 0x700004 = some (st, ep, dest) → routeTo s.dev st = some side →
      Runs .splitCheckTimer s fun t =>
        t.pair = { p with check := some (s.dev.ring.nextSeq, false) } ∧
        (t.ring.reqs.map (·.seq)) = s.dev.ring.reqs.map (·.seq) ++ [s.dev.ring.nextSeq] ∧ OnlyRing s.dev { t with pair := p }))

/-- A forming member that hears a partner of its digest that is ACTIVE becomes SHADOW, one that is SHADOW it becomes
ACTIVE, and both begin RESYNC. When the mirror lane is not UP in time it goes on by the ring; joined with no partner in
the map in time it is ACTIVE and PARTNER_LOST; not joined in time it is ACTIVE, fenced and ISOLATED with no channel
held. Out of these conditions the timeouts change nothing. FORCE_RESYNC, a faulty mirror cell and a gap before one take
a formed pair from IN_STEP to RESYNC, counted, with neither direction complete, under a new number (the model's choice,
log 27), and a castling only asked for forgotten (the model's choice, log 106); in RESYNC they begin it anew, not
counted again (inferred, log 27); in other states, and a faulty cell without block lock, change nothing. The partner's
RESYNC with the number of this member's resync ends its direction, one of an earlier resync changes nothing; with this
member's own complete too, an unfenced member is IN_STEP; that both directions end it and that its start is counted is
inferred (log 27). Under these conditions on state and operands alone exec answers the next state described, for
.heartbeat, .fc, .resync, .forceResync, .mirrorUpTimeout, .partnerWaitTimeout, .joinWaitTimeout, .mirrorCellError. -/
def Obligations.PairFormingAndResync : Prop :=
  (∀ s : State, Up s →
    let p := s.dev.pair
    (∀ (q : BitVec 16) (m : HbMsg), InOrder s q → MrxIdle s → p.role = .forming → m.digest = p.digest →
      (m.role = 1 → Runs (.heartbeat q m) s fun t => t.pair.role = .shadow ∧ t.pair.st = .resync ∧ t.pair.held = 0 ∧
        t.pair.resyncCnt = cntUp p.resyncCnt ∧ { t with pair := p } = s.dev) ∧
      (m.role = 2 → Runs (.heartbeat q m) s fun t => t.pair.role = .active ∧ t.pair.st = .resync ∧
        t.pair.resyncCnt = cntUp p.resyncCnt ∧ t.sram = s.dev.sram ∧ t.tim = s.dev.tim)) ∧
    (p.role = .forming → s.dev.ring.mirror.st ≠ .up → s.dev.ring.join ≠ .joined →
      RunsTo .mirrorUpTimeout s { s.dev with pair := { p with formRing := true } }) ∧
    ((p.role ≠ .forming ∨ s.dev.ring.mirror.st = .up) → RunsTo .mirrorUpTimeout s s.dev) ∧
    (p.role = .forming → p.formRing = true → s.dev.ring.mirror.st ≠ .up → s.dev.ring.join = .joined →
      routeTo s.dev p.partner = none → Runs .partnerWaitTimeout s fun t =>
        t.pair.role = .active ∧ t.pair.st = .partnerLost ∧ t.sram = s.dev.sram ∧ t.tim = s.dev.tim) ∧
    ((p.formRing = false ∨ s.dev.ring.mirror.st = .up ∨ s.dev.ring.join ≠ .joined) → RunsTo .partnerWaitTimeout s s.dev) ∧
    (p.role = .forming → p.formRing = true → s.dev.ring.mirror.st ≠ .up → s.dev.ring.join ≠ .joined →
      Runs .joinWaitTimeout s fun t => t.pair.role = .active ∧ t.pair.st = .isolated ∧ t.pair.fenced = true ∧
        t.pair.held = 0 ∧ (Vaon s → ∀ n : ChanNo, (chan t n).line.token = false) ∧ t.sram = s.dev.sram ∧ t.tim = s.dev.tim) ∧
    ((p.role ≠ .forming ∨ s.dev.ring.join = .joined) → RunsTo .joinWaitTimeout s s.dev)) ∧
  (∀ s : State, Up s →
    let p := s.dev.pair
    let formed := p.role = .active ∨ p.role = .shadow
    let begun := { s.dev with pair := { p with
      st := .resync, resyncCnt := if p.st = .inStep then cntUp p.resyncCnt else p.resyncCnt, resyncSent := false, resyncGot := false
      resyncNo := p.resyncNo + 1, resyncFor := none, asked := false } }
    (formed → (p.st = .inStep ∨ p.st = .resync) → RunsTo .forceResync s begun ∧
      (s.dev.ring.mirror.blockLock = true → RunsTo .mirrorCellError s begun)) ∧
    (s.dev.ring.mirror.blockLock = false → RunsTo .mirrorCellError s s.dev) ∧
    (¬ (formed ∧ (p.st = .inStep ∨ p.st = .resync)) → RunsTo .forceResync s s.dev ∧ RunsTo .mirrorCellError s s.dev) ∧
    (∀ (q l : BitVec 16), s.dev.ring.mirror.blockLock = true → p.mirGot = some l → q ≠ l + 1 → formed → (p.st = .inStep ∨ p.st = .resync) → MrxIdle s →
      ∀ (n : ChanNo) (tec : BitVec 9) (recv : BitVec 8) (st : Sys2Proof.FcSt), p.held.getLsbD n.val = true →
        RunsTo (.fc q n tec recv st) s { begun with pair := { begun.pair with mirGot := some q } }) ∧
    (∀ (q : BitVec 16) (no : BitVec 8), InOrder s q → MrxIdle s →
      (formed → p.st = .resync → no = p.resyncNo → p.resyncSent = false →
        RunsTo (.resync ⟨q, no⟩) s { s.dev with pair := { p with mirGot := some q, resyncGot := true } }) ∧
      (formed → p.st = .resync → no = p.resyncNo → p.resyncSent = true → (p.role = .shadow ∨ p.fenced = false) →
        RunsTo (.resync ⟨q, no⟩) s { s.dev with pair := { p with mirGot := some q, resyncGot := true, st := .inStep, check := none, checkDue := false } }) ∧
      ((p.st ≠ .resync ∨ no ≠ p.resyncNo) → RunsTo (.resync ⟨q, no⟩) s (heardOn s.dev q))))

/-- Of a cell in order, with none waiting before it: at a formed pair's member that does not hold the channel, in step
or in resync, LQ_STATE, FC, BALLOT and HOLDLOG put their content into that channel's copy, LQ_WIN stores its word alone
where the queue is placed, but a word of a launch time translated before brings the other back as the partner holds it
(R461; log 163); an entry that leaves FREE is fetched (log 160), and JPOS with CLEAR_MARK and with the policy write the
mark and hold. At the shadow CONTEXT writes the registers of its context, LOCK its lock, EPOCH the epochs and the map,
TIME the rate and a generation. Nothing else changes; for a channel that is held LQ_STATE and FC change nothing. A cell
behind one that waits, or whose bank is not free, waits. A lane without block lock takes nothing (log 128); that a
mirrored FC writes no entry is log 109: both are inferred. Under these conditions on state and operands alone exec
answers the next state described, for .lqWin, .lqState, .fc, .jpos, .time, .ballot, .holdlog, .context, .lock, .epoch.
-/
def Obligations.MirroredItemsTaken : Prop :=
  ∀ (s : State) (q : BitVec 16) (n : ChanNo), Up s →
    let d := heardOn s.dev q
    let p := d.pair
    let takes := (p.role = .active ∨ p.role = .shadow) ∧ (p.st = .inStep ∨ p.st = .resync)
    let copy := takes ∧ p.held.getLsbD n.val = false
    (s.dev.ring.mirror.blockLock = false → ∀ (i : Fin 16) (e : Sys2Proof.HoldEnt), RunsTo (.holdlog q n i e) s s.dev) ∧
    (InOrder s q → p.mrxQ ≠ [] → ∀ (i : Fin 16) (e : Sys2Proof.HoldEnt), RunsTo (.holdlog q n i e) s
      { d with pair := { p with mrxQ := p.mrxQ ++ [.holdlog n i.val e] } }) ∧
    (InOrder s q → copy → (chan d n).lq.base.isSome = true → p.mrxQ = [] → ∀ (i : LqIdx) (w : Fin 24) (v : Word),
      ¬ BankFree d mrxReq (lqPlace d n i 0) → Runs (.lqWin q n i w v) s fun t =>
        t.pair.mrxQ = [.lqWin n i w.val v] ∧ OnlyBanks d { t with pair := p }) ∧
    (InOrder s q → MrxIdle s →
    (copy → (chan d n).lq.base.isSome = true → ∀ (i : LqIdx) (w : Fin 24) (v : Word),
      BankFree d mrxReq (lqPlace d n i 0) → Runs (.lqWin q n i w v) s fun t =>
      let back := if w.val = 2 ∨ w.val = 3 then tabGet none (chan d n).lq.abroad i.val else none
      sramWord t (lqPlace d n i w.val) = v ∧ OnlyChan n (noBanks d) (noBanks { t with sram := d.sram }) ∧
      (back = none → (∀ a, (∀ b, b < 4 → a ≠ lqPlace d n i w.val + b) → sramByte t a = sramByte d a) ∧
        ((lqEnt d n i).st = .free → OnlyBanks d { t with sram := d.sram })) ∧
      (∀ l : Raw, back = some l →
        sramWord t (lqPlace d n i (5 - w.val)) = (if w.val = 2 then l.extractLsb' 32 32 else l.extractLsb' 0 32) ∧
        (∀ a, (∀ b, b < 8 → a ≠ lqPlace d n i 2 + b) → sramByte t a = sramByte d a))) ∧
    (copy → ∀ (i : LqIdx) (st : Sys2Proof.LqSt) (cancel late : Bool),
      let fetches := st ≠ .free ∧ (lqEnt d n i).st = .free
      let e : LqEnt := if st = .free then {} else { st := st, cancel := cancel, late := late
                                                    words := if fetches then lqFetched d n i else (lqEnt d n i).words }
      (¬ fetches → RunsTo (.lqState q n i st cancel late false) s (onLq d n (fun x => { x with ents := tabSet {} x.ents i.val e }))) ∧
      (fetches → BankFree d mrxReq (lqPlace d n i 0) → Runs (.lqState q n i st cancel late false) s fun t =>
        lqEnt t n i = e ∧ OnlyChan n (noBanks d) (noBanks t)) ∧
      (BankFree d mrxReq (lqPlace d n i 0) → Runs (.lqState q n i st cancel late true) s fun t =>
        lqEnt t n i = { e with words := (lqEnt t n i).words } ∧ (fetches → (lqEnt t n i).words = lqFetched t n i) ∧
        OnlyChan n (noBanks d) (noBanks { t with sram := d.sram }))) ∧
    (p.held.getLsbD n.val = true → ∀ (i : LqIdx) (st : Sys2Proof.LqSt) (cancel late com : Bool),
      RunsTo (.lqState q n i st cancel late com) s d) ∧
    (p.held.getLsbD n.val = true → ∀ (tec : BitVec 9) (recv : BitVec 8) (st : Sys2Proof.FcSt),
      RunsTo (.fc q n tec recv st) s d) ∧
    (copy → p.fcLocal.getLsbD n.val = false → ∀ (tec : BitVec 9) (recv : BitVec 8) (st : Sys2Proof.FcSt),
      RunsTo (.fc q n tec recv st) s (onFe d n (fun f => { f with
        tec := tec, recv := recv, fcState := st, recovering := f.recovering && decide (st = .busOff)
        recovCnt := if st = .busOff then f.recovCnt else 0 }))) ∧
    (copy → ∀ (ph : Sys2Proof.BalPh) (no : BitVec 8) (we de : Raw), RunsTo (.ballot q n ph no we de false) s
      (onSlp d n (fun x => { x with phase := ph, number := no, windowEnd := we, descentEnd := de }))) ∧
    (copy → ∀ (i : Fin 16) (e : Sys2Proof.HoldEnt), RunsTo (.holdlog q n i e) s
      (onSlp d n (fun x => { x with log := x.log.set i e }))) ∧
    (copy → ∀ x : BitVec 80, RunsTo (.jpos q n .clearMark x) s (onJn d n (fun j => { j with mark := none })) ∧
      ∀ h : Bool, RunsTo (.jpos q n (.policy h) x) s (onJn d n (fun j => { j with hold := h }))) ∧
    (takes → p.role = .shadow →
      (∀ (k : EngNo) (c : CtxNo) (g : Vector Word 16), RunsTo (.context q k c g) s (onCtx d k c (fun x => { x with g := g }))) ∧
      (∀ (i : LockNo) (o : BitVec 10) (ms : BitVec 16) (e : Raw) (broken : Bool),
        let l := { lockAt d i.val with owner := o, held := false, leaseMs := ms, leaseEnd := 0, broken := broken }
        canUse d mrxReq lockTable = true → Runs (.lock q i o false ms e broken) s fun t =>
          OnlyBanks { d with locks := tabSet {} d.locks i.val l } t) ∧
      (p.st = .inStep → ∀ (pe se : BitVec 8) (m : BitVec 64), RunsTo (.epoch q pe se m) s { d with pair := { p with
        epoch := pe, castled := m, peer := p.peer.map (fun x => { x with stEpoch := se }) } }) ∧
      (∀ (r : BitVec 48) (o : BitVec 80) (g : BitVec 4) (b : Raw), Runs (.time q r o g b) s fun t =>
        t.tim.rate = r ∧ t.tim.gen = g ∧ (histOf t g).valid = true ∧ (histOf t g).rate = r ∧ t.tim.raw = d.tim.raw ∧
        { t with tim := d.tim, glb := { t.glb with acquired := d.glb.acquired } } = d)))

/-- castle answers NOT_FORMED (6), NOT_IN_STEP (2) or BUSY (5), the first that holds, and nothing else; accepted (1) the
active tells the partner that it begins (the model's choice, log 106) and begins to give every channel it holds, and
with none held queues its TOKEN; the shadow asks the active for it over the mirror lane (the model's choice, log 106),
which then begins it. CHANNEL_CASTLE likewise with BUSY, LOCAL_FC (3) and ROLE (4) in that order. A channel to be given
up that is idle loses its token and is no longer held; one that may not be given yet, or is not to be, stays. A TOKEN
with the whole pair makes a shadow in step or in resync ACTIVE, in another state it changes nothing (R294). A castling
told of by the partner is one in progress until it has ended (log 106). Under these conditions on state and operands
alone exec answers the next state described, for .token, .castle, .channelCastle, .tokenRelease. -/
def Obligations.CastlingCommands : Prop :=
  ∀ s : State, Up s →
    let p := s.dev.pair
    let answer := fun (code : BitVec 4) => { s.dev with pair := { p with resCode := code, resWhole := true } }
    let begun : List (ReqNo × MirMsg) := [(qHouse, .token 0 .begun)]
    let first : List (Bool × BitVec 4) := [
      (decide (p.role = .unpaired ∨ p.role = .forming), 6), (decide (p.st ≠ .inStep), 2), (castlingNow s.dev, 5)]
    (∀ c, (first.find? (·.1)).map (·.2) = some c → RunsTo .castle s (answer c)) ∧
    (first.find? (·.1) = none → p.role = .shadow → RunsTo .castle s (mirrorQueue { s.dev with pair := { p with
      resCode := 1, resWhole := true, asked := true } } qHouse (.token (BitVec.allOnes 64) .ask))) ∧
    (first.find? (·.1) = none → p.role = .active → p.held ≠ 0 → RunsTo .castle s { s.dev with pair := { p with
      resCode := 1, resWhole := true, outOfStep := false, giving := p.held, castling := some .whole, mirOut := p.mirOut ++ begun } }) ∧
    (first.find? (·.1) = none → p.role = .active → p.held = 0 → RunsTo .castle s (mirrorQueue { s.dev with pair := { p with
      resCode := 1, resWhole := true, outOfStep := false, giving := 0, castling := some .whole, mirOut := p.mirOut ++ begun } } qHouse
      (.token (BitVec.allOnes 64) .whole))) ∧
    (∀ n : ChanNo,
      let f := (chan s.dev n).fe
      let said := fun (code : BitVec 4) => { s.dev with pair := { p with
        resCode := code, resWhole := false, resChan := BitVec.ofNat 6 n.val } }
      let own := p.held.getLsbD n.val = true
      let checks : List (Bool × BitVec 4) := [
        (decide (p.role = .unpaired ∨ p.role = .forming), 6), (decide (p.st ≠ .inStep), 2), (castlingNow s.dev, 5),
        (decide (f.fcState = .busOff) || (if p.held.getLsbD n.val then p.peerLocal.getLsbD n.val else p.fcLocal.getLsbD n.val), 3),
        (!mayDrive f.role, 4)]
      (∀ c, (checks.find? (·.1)).map (·.2) = some c → RunsTo (.channelCastle n) s (said c)) ∧
      (checks.find? (·.1) = none → ¬ own → RunsTo (.channelCastle n) s (mirrorQueue { s.dev with pair := { p with
        resCode := 1, resWhole := false, resChan := BitVec.ofNat 6 n.val, asked := true } } (qChan n)
        (.token (setBit 0 n.val) .ask))) ∧
      (checks.find? (·.1) = none → own → RunsTo (.channelCastle n) s { s.dev with pair := { p with
        resCode := 1, resWhole := false, resChan := BitVec.ofNat 6 n.val, giving := setBit p.giving n.val
        castling := some .channel, mirOut := p.mirOut ++ begun } }) ∧
      (p.giving.getLsbD n.val = false → RunsTo (.tokenRelease n) s s.dev) ∧
      ((∃ i, (lqEnt s.dev n i).st = .onBus) → f.fcState ≠ .busOff → RunsTo (.tokenRelease n) s s.dev) ∧
      (p.giving.getLsbD n.val = true → (∀ i, (lqEnt s.dev n i).st ≠ .onBus) → idleBus f = true → p.castling = some .channel →
        Runs (.tokenRelease n) s fun t =>
          (Vaon s → (chan t n).line.token = false) ∧ t.pair.held.getLsbD n.val = false ∧ t.pair.giving.getLsbD n.val = false ∧
          t.pair.castling = none ∧ t.pair.epoch = p.epoch + 1 ∧ t.ring.epoch = s.dev.ring.epoch + 1 ∧
          (∀ m : ChanNo, m ≠ n → chan t m = chan s.dev m) ∧ t.sram = s.dev.sram ∧ t.tim = s.dev.tim)) ∧
    (∀ (q : BitVec 16), InOrder s q → MrxIdle s → p.role = .active → p.st = .inStep → p.held ≠ 0 → castlingNow s.dev = false →
      RunsTo (.token q (BitVec.allOnes 64) .ask) s { heardOn s.dev q with pair := { (heardOn s.dev q).pair with
        outOfStep := false, giving := p.held, castling := some .whole, mirOut := p.mirOut ++ begun } }) ∧
    (∀ q : BitVec 16, InOrder s q → MrxIdle s → (p.role = .active ∨ p.role = .shadow) → (p.st = .inStep ∨ p.st = .resync) →
      (¬ (p.role = .active ∧ p.st = .inStep ∧ castlingNow s.dev = false) →
        RunsTo (.token q (BitVec.allOnes 64) .ask) s (mirrorQueue (heardOn s.dev q) qHouse (.token 0 .over))) ∧
      (p.castling = none → RunsTo (.token q 0 .begun) s { heardOn s.dev q with pair := { (heardOn s.dev q).pair with peerCastling := true } }) ∧
      RunsTo (.token q 0 .over) s { heardOn s.dev q with pair := { (heardOn s.dev q).pair with asked := false, peerCastling := false } }) ∧
    (∀ (q : BitVec 16) (m : BitVec 64), InOrder s q → MrxIdle s → p.st ≠ .inStep → p.st ≠ .resync →
      RunsTo (.token q m .whole) s (heardOn s.dev q)) ∧
    (∀ (q : BitVec 16) (m : BitVec 64), InOrder s q → MrxIdle s → p.role = .shadow → (p.st = .inStep ∨ p.st = .resync) → Runs (.token q m .whole) s fun t =>
      t.pair.role = .active ∧ t.pair.castled = 0 ∧ t.pair.epoch = p.epoch + 1 ∧ t.pair.evt.getLsbD 0 = true ∧
      t.sram = s.dev.sram ∧ t.flash = s.dev.flash ∧ t.tim = s.dev.tim) ∧
    (∀ (q : BitVec 16) (m : BitVec 64), InOrder s q → MrxIdle s → (p.role = .active ∨ p.role = .shadow) → Runs (.token q m .plain) s fun t =>
      (∀ n : ChanNo, m.getLsbD n.val = true → mayDrive (chan s.dev n).fe.role = true →
        (Vaon s → (chan t n).line.token = true) ∧ t.pair.held.getLsbD n.val = true) ∧
      t.pair.role = p.role ∧ t.sram = s.dev.sram ∧ t.flash = s.dev.flash ∧ t.tim = s.dev.tim) ∧
    (∀ (q : BitVec 16) (m : BitVec 64) (w : Sys2Proof.TokenWhy), InOrder s q → MrxIdle s → (p.role = .unpaired ∨ p.role = .forming) →
      RunsTo (.token q m w) s (heardOn s.dev q))

/-- A start of a STOPPED engine puts it in RUN with every enabled context READY at its entry address and every other
OFF; out of STOPPED it sets start_refused alone. A stop of a running engine leaves it STOPPING with every stalled
context READY at its pc, a bank of its port released; STOPPED follows with every context that is not FAULTED OFF. Other
engines and the cells of other engines are unchanged. Under these conditions on state and operands alone exec answers
the next state described, for .engineStart, .engineStop, .engineStopped. -/
def Obligations.EnginesStartAndStop : Prop :=
  ∀ (s : State) (k : EngNo), Up s →
    let e := s.dev.eng[k]
    let apartEng := fun (t : Device) => (∀ j : EngNo, j ≠ k → t.eng[j] = s.dev.eng[j]) ∧
      (∀ p : PinNo, engOf p ≠ k → pinAt t p = pinAt s.dev p) ∧ { t with eng := s.dev.eng, pin := s.dev.pin } = s.dev
    (e.st ≠ .stopped → RunsTo (.engineStart k) s (onEng s.dev k (fun e => { e with startRefused := true }))) ∧
    (e.st = .stopped → Runs (.engineStart k) s fun t =>
      t.eng[k].st = .run ∧
      (∀ c : CtxNo, ctxOf t k c = { ctxOf s.dev k c with
        st := if e.ctxEn.getLsbD c.val then .ready else .off
        pc := if e.ctxEn.getLsbD c.val then (ctxOf s.dev k c).cfg.setWidth 10 else (ctxOf s.dev k c).pc
        cause := 0, wait := .none }) ∧
      { t.eng[k] with st := e.st, last := e.last, port := e.port, ctx := e.ctx } = e ∧ apartEng t) ∧
    (e.st ≠ .run → RunsTo (.engineStop k) s s.dev) ∧
    (e.st = .run → Runs (.engineStop k) s fun t => t.eng[k].st = .stopping ∧ t.eng[k].port = none ∧ t.eng[k].conv = none ∧
      (∀ c : CtxNo, ctxOf t k c = if (ctxOf s.dev k c).st = .stalled then
        { ctxOf s.dev k c with st := .ready, cause := 0, wait := .none } else ctxOf s.dev k c) ∧
      (∀ j : EngNo, j ≠ k → t.eng[j] = s.dev.eng[j]) ∧ t.pin = s.dev.pin ∧
      ((∀ c : CtxNo, (ctxOf s.dev k c).st = .stalled → (ctxOf s.dev k c).cause ≠ 4) →
        OnlyBanks s.dev { t with eng := s.dev.eng } ∧ (heldBy s.dev (portReq k) = [] → { t with eng := s.dev.eng } = s.dev))) ∧
    (∀ cells : List Sys2Proof.PinStop, e.st = .stopping → Runs (.engineStopped k cells) s fun t =>
      t.eng[k].st = .stopped ∧ (∀ c : CtxNo, ctxOf t k c = if (ctxOf s.dev k c).st = .faulted then ctxOf s.dev k c else
        { ctxOf s.dev k c with st := .off, cause := 0, wait := .none }) ∧ apartEng t) ∧
    (∀ cells : List Sys2Proof.PinStop, e.st ≠ .stopping → RunsTo (.engineStopped k cells) s s.dev)

/-- On its turn, with its word at pc, each of ADD, SUB, AND, OR, XOR, SHL, SHR and SRA writes its result to rd, modulo
2^32, a shift by bits [4:0] of rb, and completes: pc one on, the context READY, its turn taken. Nothing else in the
device changes. On its turn, with its word at pc, ADDI adds the sign-extended immediate, ANDI, ORI and XORI take the
zero-extended one, SHLI, SHRI and SRAI shift by the immediate, LDI loads 16 bits, LDH the upper half with the lower
kept, EXT the field of len bits from pos. The result goes to rd and the instruction completes. Nothing else in the
device changes. Under these conditions on state and operands alone exec answers the next state described, for .add,
.sub, .and, .or, .xor, .shl, .shr, .sra, .addi, .andi, .ori, .xori, .shli, .shri, .srai, .ldi, .ldh, .ext. -/
def Obligations.IsaArithmeticAndLogic : Prop :=
  (∀ (s : State) (k : EngNo) (c : CtxNo) (rd ra rb : GReg),
    let a := greg s.dev k c ra
    let b := greg s.dev k c rb
    let sh := b.toNat % 32
    (Turn s k c (encR 0x01 rd ra rb 0 0) → RunsTo (.add k c rd ra rb) s (wrote s.dev k c rd (a + b))) ∧
    (Turn s k c (encR 0x02 rd ra rb 0 0) → RunsTo (.sub k c rd ra rb) s (wrote s.dev k c rd (a - b))) ∧
    (Turn s k c (encR 0x03 rd ra rb 0 0) → RunsTo (.and k c rd ra rb) s (wrote s.dev k c rd (a &&& b))) ∧
    (Turn s k c (encR 0x04 rd ra rb 0 0) → RunsTo (.or k c rd ra rb) s (wrote s.dev k c rd (a ||| b))) ∧
    (Turn s k c (encR 0x05 rd ra rb 0 0) → RunsTo (.xor k c rd ra rb) s (wrote s.dev k c rd (a ^^^ b))) ∧
    (Turn s k c (encR 0x06 rd ra rb 0 0) → RunsTo (.shl k c rd ra rb) s (wrote s.dev k c rd (a <<< sh))) ∧
    (Turn s k c (encR 0x07 rd ra rb 0 0) → RunsTo (.shr k c rd ra rb) s (wrote s.dev k c rd (a >>> sh))) ∧
    (Turn s k c (encR 0x08 rd ra rb 0 0) → RunsTo (.sra k c rd ra rb) s (wrote s.dev k c rd (a.sshiftRight sh)))) ∧
  (∀ (s : State) (k : EngNo) (c : CtxNo) (rd ra : GReg),
    let a := greg s.dev k c ra
    (∀ imm : BitVec 18,
      (Turn s k c (encI 0x09 rd ra imm.toNat) → RunsTo (.addi k c rd ra imm) s (wrote s.dev k c rd (a + imm.signExtend 32))) ∧
      (Turn s k c (encI 0x0A rd ra imm.toNat) → RunsTo (.andi k c rd ra imm) s (wrote s.dev k c rd (a &&& imm.setWidth 32))) ∧
      (Turn s k c (encI 0x0B rd ra imm.toNat) → RunsTo (.ori k c rd ra imm) s (wrote s.dev k c rd (a ||| imm.setWidth 32))) ∧
      (Turn s k c (encI 0x0C rd ra imm.toNat) → RunsTo (.xori k c rd ra imm) s (wrote s.dev k c rd (a ^^^ imm.setWidth 32)))) ∧
    (∀ sh : Fin 32,
      (Turn s k c (encI 0x0D rd ra sh.val) → RunsTo (.shli k c rd ra sh) s (wrote s.dev k c rd (a <<< sh.val))) ∧
      (Turn s k c (encI 0x0E rd ra sh.val) → RunsTo (.shri k c rd ra sh) s (wrote s.dev k c rd (a >>> sh.val))) ∧
      (Turn s k c (encI 0x0F rd ra sh.val) → RunsTo (.srai k c rd ra sh) s (wrote s.dev k c rd (a.sshiftRight sh.val)))) ∧
    (∀ imm : BitVec 16,
      (Turn s k c (encU 0x10 rd imm) → RunsTo (.ldi k c rd imm) s (wrote s.dev k c rd (imm.setWidth 32))) ∧
      (Turn s k c (encU 0x11 rd imm) → RunsTo (.ldh k c rd imm) s
        (wrote s.dev k c rd (imm ++ (greg s.dev k c rd).extractLsb' 0 16)))) ∧
    (∀ pos lenM1 : Fin 32, Turn s k c (encI 0x12 rd ra (pos.val * 32 + lenM1.val)) →
      RunsTo (.ext k c rd ra pos lenM1) s
        (wrote s.dev k c rd (BitVec.ofNat 32 (a.toNat / 2 ^ pos.val % 2 ^ (lenM1.val + 1))))))

/-- On its turn, with its word at pc, a branch goes to its target when its comparison holds, signed for BLT and BGE,
unsigned for BLTU and BGEU, else to pc + 1 modulo 1 024; JMP goes to its target, JR to the register's low 10 bits, CALL
to its target with pc + 1 in g15. No other register and nothing else in the device changes. Under these conditions on
state and operands alone exec answers the next state described, for .beq, .bne, .blt, .bge, .bltu, .bgeu, .beqi, .bnei,
.jmp, .call, .jr. -/
def Obligations.IsaBranchResults : Prop :=
  ∀ (s : State) (k : EngNo) (c : CtxNo) (ra rb : GReg) (x : BitVec 10),
    let a := greg s.dev k c ra
    let b := greg s.dev k c rb
    let g := (ctxOf s.dev k c).g
    let pc := (ctxOf s.dev k c).pc
    let goes := fun (b : Bool) => retired s.dev k c g (if b then x else pc + 1)
    (Turn s k c (encB 0x14 ra rb 0 x) → RunsTo (.beq k c ra rb x) s (goes (a == b))) ∧
    (Turn s k c (encB 0x15 ra rb 0 x) → RunsTo (.bne k c ra rb x) s (goes (a != b))) ∧
    (Turn s k c (encB 0x16 ra rb 0 x) → RunsTo (.blt k c ra rb x) s (goes (decide (a.toInt < b.toInt)))) ∧
    (Turn s k c (encB 0x17 ra rb 0 x) → RunsTo (.bge k c ra rb x) s (goes (decide (b.toInt ≤ a.toInt)))) ∧
    (Turn s k c (encB 0x18 ra rb 0 x) → RunsTo (.bltu k c ra rb x) s (goes (decide (a.toNat < b.toNat)))) ∧
    (Turn s k c (encB 0x19 ra rb 0 x) → RunsTo (.bgeu k c ra rb x) s (goes (decide (b.toNat ≤ a.toNat)))) ∧
    (∀ imm : BitVec 8,
      (Turn s k c (encB 0x1A ra 0 imm x) → RunsTo (.beqi k c ra imm x) s (goes (decide (a.toNat = imm.toNat)))) ∧
      (Turn s k c (encB 0x1B ra 0 imm x) → RunsTo (.bnei k c ra imm x) s (goes (decide (a.toNat ≠ imm.toNat))))) ∧
    (Turn s k c (encB 0x1C 0 0 0 x) → RunsTo (.jmp k c x) s (goes true)) ∧
    (Turn s k c (encB 0x1D 0 0 0 x) →
      RunsTo (.call k c x) s (retired s.dev k c (g.set (15 : GReg) (BitVec.ofNat 32 (pc.toNat + 1))) x)) ∧
    (Turn s k c (encB 0x1E ra 0 0 0) → RunsTo (.jr k c ra) s (retired s.dev k c g (BitVec.ofNat 10 a.toNat)))

/-- On its turn SLD loads the scratch word at ra + imm18 modulo 16 384, here of agreeing check bits, and SST stores rd
there. MLD and MST of a binding NONE fault UNBOUND; else the first turn stalls the context for the memory port, whose
bank is requested; the port's service, once it is this context's and the bank is to be had, reads the SRAM word or
stores rd's there and no other byte, and the next turn of MLD writes rd. Nothing else in the device changes. That every
binding but NONE reaches the SRAM is inferred (log 33). Under these conditions on state and operands alone exec answers
the next state described, for .stallEnd, .sld, .sst, .mld, .mst. -/
def Obligations.IsaMemoryInstructions : Prop :=
  ∀ (s : State) (k : EngNo) (c : CtxNo) (rd ra : GReg) (imm : BitVec 18),
    let x := ctxOf s.dev k c
    let at_ := ((greg s.dev k c ra + imm.signExtend 32).toNat) % 16384
    let v := greg s.dev k c rd
    let byte := 4 * ((greg s.dev k c ra + imm.signExtend 32).toNat % 4194304)
    let waiting := fun (w : CtxWait) => ∀ ws, w ≠ .done ws
    let issued := atThePort s.dev k c (some byte)
    (Turn s k c (encI 0x20 rd ra imm.toNat) → tabGet (0 : BitVec 39) s.dev.eng[k].flips at_ = 0 →
      RunsTo (.sld k c rd ra imm) s (wrote s.dev k c rd (tabGet (0 : Word) s.dev.eng[k].scratch at_))) ∧
    (Turn s k c (encI 0x21 rd ra imm.toNat) → RunsTo (.sst k c rd ra imm) s (retired (onEng s.dev k (fun e => { e with
      scratch := tabSet (0 : Word) e.scratch at_ v, flips := tabSet (0 : BitVec 39) e.flips at_ 0 })) k c x.g (x.pc + 1))) ∧
    (bindOf x = 0 →
      (Turn s k c (encI 0x22 rd ra imm.toNat) → RunsTo (.mld k c rd ra imm) s (faulted s.dev k c 0xA)) ∧
      (Turn s k c (encI 0x23 rd ra imm.toNat) → RunsTo (.mst k c rd ra imm) s (faulted s.dev k c 0xA))) ∧
    (bindOf x ≠ 0 → waiting x.wait →
      (Turn s k c (encI 0x22 rd ra imm.toNat) → RunsTo (.mld k c rd ra imm) s issued) ∧
      (Turn s k c (encI 0x23 rd ra imm.toNat) → RunsTo (.mst k c rd ra imm) s issued)) ∧
    (∀ w : Word, bindOf x ≠ 0 → x.wait = .done [w] → Turn s k c (encI 0x22 rd ra imm.toNat) →
      RunsTo (.mld k c rd ra imm) s (wrote s.dev k c rd w)) ∧
    (bindOf x ≠ 0 → x.wait = .done [] → Turn s k c (encI 0x23 rd ra imm.toNat) →
      RunsTo (.mst k c rd ra imm) s (retired s.dev k c x.g (x.pc + 1))) ∧
    (Up s → s.dev.eng[k].st = .run → x.st = .stalled → x.cause = 1 → s.dev.eng[k].port = some c →
      let free := BankFree s.dev (portReq k) byte
      ((progAt s.dev.eng[k] x.pc = encI 0x22 rd ra imm.toNat ∨ progAt s.dev.eng[k] x.pc = encI 0x23 rd ra imm.toNat) → ¬ free →
        RunsTo (.stallEnd k c) s (turnTo s.dev (portReq k) (bankOf byte))) ∧
      (progAt s.dev.eng[k] x.pc = encI 0x22 rd ra imm.toNat → free → Runs (.stallEnd k c) s fun t =>
        PortServed s.dev k c [(delivered s.dev byte).word] { s.dev with glb := t.glb } t ∧ t.sram = s.dev.sram) ∧
      (progAt s.dev.eng[k] x.pc = encI 0x23 rd ra imm.toNat → free → Runs (.stallEnd k c) s fun t =>
        PortServed s.dev k c [] { s.dev with sram := t.sram } t ∧ sramWord t byte = v ∧
        (∀ a, (∀ b, b < 4 → a ≠ byte + b) → sramByte t a = sramByte s.dev a)))

/-- On its turn, of a cell the context is bound to, PPUSH appends ra to the TX queue while it has room, else stalls with
cause 3; PPOP takes the oldest RX word to rd, on an empty queue it stalls with cause 2; PPOPN takes it with rv 1, or
gives 0 with rv 0. A cell that the binding does not cover faults UNBOUND. A stall ends when there is room or a word: the
context is READY and completes at its next turn. Nothing else in the device changes. Under these conditions on state and
operands alone exec answers the next state described, for .stallEnd, .ppush, .ppop, .ppopn. -/
def Obligations.IsaPinQueues : Prop :=
  ∀ (s : State) (k : EngNo) (c : CtxNo) (rd ra rv : GReg) (cell : Fin 16),
    let x := ctxOf s.dev k c
    let b := boundCell s.dev k c cell.val
    let taken := fun (p : PinNo) (r : List Word) => onPin s.dev p (fun q => { q with rxq := r })
    (b = none →
      (Turn s k c (encI 0x28 0 ra cell.val) → RunsTo (.ppush k c ra cell) s (faulted s.dev k c 0xA)) ∧
      (Turn s k c (encI 0x29 rd 0 cell.val) → RunsTo (.ppop k c rd cell) s (faulted s.dev k c 0xA)) ∧
      (Turn s k c (encI 0x2A rd rv cell.val) → RunsTo (.ppopn k c rd rv cell) s (faulted s.dev k c 0xA))) ∧
    (∀ p, b = some p →
      (Turn s k c (encI 0x28 0 ra cell.val) →
        ((pinAt s.dev p).txq.length < pinCap (pinAt s.dev p) → RunsTo (.ppush k c ra cell) s
          (retired (onPin s.dev p (fun q => { q with txq := q.txq ++ [greg s.dev k c ra] })) k c x.g (x.pc + 1))) ∧
        (pinCap (pinAt s.dev p) ≤ (pinAt s.dev p).txq.length →
          RunsTo (.ppush k c ra cell) s (blocked s.dev k c 3 .pending))) ∧
      (Turn s k c (encI 0x29 rd 0 cell.val) →
        (∀ w r, (pinAt s.dev p).rxq = w :: r → RunsTo (.ppop k c rd cell) s (wrote (taken p r) k c rd w)) ∧
        ((pinAt s.dev p).rxq = [] → RunsTo (.ppop k c rd cell) s (blocked s.dev k c 2 .pending))) ∧
      (Turn s k c (encI 0x2A rd rv cell.val) →
        (∀ w r, (pinAt s.dev p).rxq = w :: r → RunsTo (.ppopn k c rd rv cell) s
          (retired (taken p r) k c ((x.g.set rv 1).set rd w) (x.pc + 1))) ∧
        ((pinAt s.dev p).rxq = [] → RunsTo (.ppopn k c rd rv cell) s (retired s.dev k c ((x.g.set rv 0).set rd 0) (x.pc + 1)))) ∧
      (Up s → s.dev.eng[k].st = .run → x.st = .stalled →
        (x.cause = 3 → progAt s.dev.eng[k] x.pc = encI 0x28 0 ra cell.val → RunsTo (.stallEnd k c) s
          (if (pinAt s.dev p).txq.length < pinCap (pinAt s.dev p) then woken s.dev k c .none else s.dev)) ∧
        (x.cause = 2 → progAt s.dev.eng[k] x.pc = encI 0x29 rd 0 cell.val → RunsTo (.stallEnd k c) s
          (if (pinAt s.dev p).rxq ≠ [] then woken s.dev k c .none else s.dev))))

/-- On its turn, of a context bound to channel n, JRD of an empty journal gives 0 in both registers, JPK the number of
whole entries, JWAIT completes at once when there is one and else stalls; JRD, LQW, TXQ and TXC stall for the port
first, the bank of their word or entry requested, and complete with what it has latched. The port's service, once the
bank is to be had, pops a word for JRD, writes the word for LQW, starts the cancel for TXC; TXQ then stalls to its
commit edge, where the entry is committed and the code latched once the launch-queue unit has the bank of a FREE entry
for the asking. The wait of JWAIT ends at an entry or the moment. Not bound to a channel, each faults UNBOUND. Nothing
else in the device changes. On its turn TRD writes the raw counter to an even register pair, low half first; TCONV
converts the raw value of an even pair with the generation of rb to nanoseconds in rd's pair with 0 in rc, or on a stale
one 0 with 1 in rc, setting stale_seen, while another context's conversion keeps the converter busy it stalls with cause
5; WAITA and WAITD complete at once when there is nothing to wait for, else stall until the moment, at which STALL_END
makes the context READY, as it does when the converter is idle. An odd register of a pair is ILLEGAL. Nothing else in
the device changes. Under these conditions on state and operands alone exec answers the next state described, for
.stallEnd, .jrd, .jpk, .jwait, .lqw, .txq, .txc, .trd, .tconv, .waita, .waitd. -/
def Obligations.IsaChannelAndTimeInstructions : Prop :=
  (∀ (s : State) (k : EngNo) (c : CtxNo) (rd ra : GReg) (w : Fin 24) (imm : BitVec 18),
    let x := ctxOf s.dev k c
    let waiting := ∀ ws, x.wait ≠ .done ws
    let issued := fun (a : Nat) => atThePort s.dev k c (some a)
    let i : LqIdx := ⟨(greg s.dev k c ra).toNat % 128, Nat.mod_lt _ (by decide)⟩
    let word := progAt s.dev.eng[k] x.pc
    let next := retired s.dev k c x.g (x.pc + 1)
    let jrd := Turn s k c (encI 0x2C rd ra 0)
    let jpk := Turn s k c (encI 0x2D rd 0 0)
    let jwait := Turn s k c (encI 0x2E 0 0 imm.toNat)
    let lqw := Turn s k c (encI 0x30 rd ra w.val)
    let txq := Turn s k c (encI 0x31 rd ra 0)
    let txc := Turn s k c (encI 0x32 0 ra 0)
    (boundChan s.dev k c 22 = none →
      (jrd → RunsTo (.jrd k c rd ra) s (faulted s.dev k c 0xA)) ∧ (jpk → RunsTo (.jpk k c rd) s (faulted s.dev k c 0xA)) ∧
      (jwait → RunsTo (.jwait k c imm) s (faulted s.dev k c 0xA))) ∧
    (boundChan s.dev k c 23 = none →
      (lqw → RunsTo (.lqw k c rd ra w) s (faulted s.dev k c 0xA)) ∧ (txq → RunsTo (.txq k c rd ra) s (faulted s.dev k c 0xA)) ∧
      (txc → RunsTo (.txc k c ra) s (faulted s.dev k c 0xA))) ∧
    (∀ n, boundChan s.dev k c 22 = some n →
      (jrd → x.wait = .none → (chan s.dev n).jn.wr ≤ (chan s.dev n).jn.rd →
        RunsTo (.jrd k c rd ra) s (retired s.dev k c ((x.g.set rd 0).set ra 0) (x.pc + 1))) ∧
      (jrd → x.wait = .none → (chan s.dev n).jn.rd < (chan s.dev n).jn.wr → RunsTo (.jrd k c rd ra) s
        (issued (jPlace (chan s.dev n).jn (chan s.dev n).jn.rd))) ∧
      (∀ a b, jrd → x.wait = .done [a, b] →
        RunsTo (.jrd k c rd ra) s (retired s.dev k c ((x.g.set rd a).set ra b) (x.pc + 1))) ∧
      (jpk → RunsTo (.jpk k c rd) s (wrote s.dev k c rd (BitVec.ofNat 32 (jPkts s.dev n)))) ∧
      (jwait → waiting → (jPkts s.dev n ≠ 0 ∨ imm = 0) → RunsTo (.jwait k c imm) s next) ∧
      (jwait → waiting → jPkts s.dev n = 0 → imm ≠ 0 → RunsTo (.jwait k c imm) s
        (blocked s.dev k c 4 (.until (s.dev.tim.raw + BitVec.ofNat 64 (imm.toNat * 160))))) ∧
      (∀ ws, jwait → x.wait = .done ws → RunsTo (.jwait k c imm) s next)) ∧
    (∀ n, boundChan s.dev k c 23 = some n →
      (waiting → (lqw → RunsTo (.lqw k c rd ra w) s (issued (lqPlace s.dev n i w.val))) ∧
        (txq → RunsTo (.txq k c rd ra) s (issued (lqPlace s.dev n i 0))) ∧
        (txc → RunsTo (.txc k c ra) s (issued (lqPlace s.dev n i 0)))) ∧
      (∀ ws, x.wait = .done ws → (lqw → RunsTo (.lqw k c rd ra w) s next) ∧ (txc → RunsTo (.txc k c ra) s next)) ∧
      (txq → x.wait = .done [] → RunsTo (.txq k c rd ra) s (blocked s.dev k c 4 .pending)) ∧
      (∀ code r, txq → x.wait = .done (code :: r) → RunsTo (.txq k c rd ra) s (wrote s.dev k c rd code))) ∧
    (Up s → s.dev.eng[k].st = .run → x.st = .stalled →
      let free := fun (a : Nat) => BankFree s.dev (portReq k) a
      (x.cause = 1 → s.dev.eng[k].port = some c →
        (∀ n, boundChan s.dev k c 22 = some n → word = encI 0x2C rd ra 0 →
          let place := jPlace (chan s.dev n).jn (chan s.dev n).jn.rd
          let pop := popWord s.dev n
          (free place → Runs (.stallEnd k c) s (PortServed s.dev k c [pop.1.1, pop.1.2.setWidth 32] pop.2)) ∧
          (¬ free place → RunsTo (.stallEnd k c) s (turnTo s.dev (portReq k) (bankOf place)))) ∧
        (∀ n, boundChan s.dev k c 23 = some n →
          (word = encI 0x30 rd ra w.val → free (lqPlace s.dev n i w.val) →
            Runs (.stallEnd k c) s (PortServed s.dev k c [] (windowPut s.dev n i w.val (greg s.dev k c rd)))) ∧
          (word = encI 0x32 0 ra 0 → free (lqPlace s.dev n i 0) → Runs (.stallEnd k c) s
            (PortServed s.dev k c [] (startCancel s.dev n (if (greg s.dev k c ra).getLsbD 8 then none else some i)))) ∧
          (word = encI 0x31 rd ra 0 → free (lqPlace s.dev n i 0) → Runs (.stallEnd k c) s (PortServed s.dev k c [] s.dev)) ∧
          ((word = encI 0x31 rd ra 0 ∨ word = encI 0x32 0 ra 0) → ¬ free (lqPlace s.dev n i 0) →
            RunsTo (.stallEnd k c) s (turnTo s.dev (portReq k) (bankOf (lqPlace s.dev n i 0)))))) ∧
      (∀ n, boundChan s.dev k c 23 = some n → x.cause = 4 → x.wait = .pending → word = encI 0x31 rd ra 0 →
        let q : Requester := (qChan n, .queue)
        let rs := freeEntryNeeds s.dev n i
        let com := commitEntry (useAll s.dev q .commit rs) n i
        (canAll s.dev q rs = true → RunsTo (.stallEnd k c) s (woken com.2 k c (.done [BitVec.ofNat 32 com.1]))) ∧
        (canAll s.dev q rs = false → Runs (.stallEnd k c) s fun t => (⟨q, .commit, rs⟩ : ConWait) ∈ t.con.waits ∧ OnlyBanks s.dev t)) ∧
      (∀ n, boundChan s.dev k c 22 = some n → x.cause = 4 → word = encI 0x2E 0 0 imm.toNat → ∀ m, x.wait = .until m →
        RunsTo (.stallEnd k c) s
          (if jPkts s.dev n ≠ 0 ∨ reached s.dev.tim.raw m = true then woken s.dev k c (.done []) else s.dev)))) ∧
  (∀ (s : State) (k : EngNo) (c : CtxNo) (rd ra rb rc : GReg) (imm : BitVec 18),
    let x := ctxOf s.dev k c
    let pair := fun (g : Vector Word 16) (v : BitVec 64) => (g.set rd (v.extractLsb' 0 32)).set (rd + 1 : GReg) (v.extractLsb' 32 32)
    let r : Raw := greg s.dev k c (ra + 1) ++ greg s.dev k c ra
    let conv := convertGen s.dev ((greg s.dev k c rb).setWidth 4) r
    let next := retired s.dev k c x.g (x.pc + 1)
    let t := greg s.dev k c ra + imm.signExtend 32
    let waiting := ∀ ws, x.wait ≠ .done ws
    let trd := Turn s k c (encI 0x34 rd 0 0)
    let tconv := Turn s k c (encR 0x35 rd ra rb rc 0)
    let waita := Turn s k c (encI 0x36 0 ra imm.toNat)
    let waitd := Turn s k c (encI 0x37 0 0 imm.toNat)
    (trd → rd.val % 2 = 0 → RunsTo (.trd k c rd) s (retired s.dev k c (pair x.g s.dev.tim.raw) (x.pc + 1))) ∧
    (trd → rd.val % 2 = 1 → RunsTo (.trd k c rd) s (faulted s.dev k c 9)) ∧
    (tconv → (rd.val % 2 = 1 ∨ ra.val % 2 = 1) → RunsTo (.tconv k c rd ra rb rc) s (faulted s.dev k c 9)) ∧
    (∀ y, tconv → rd.val % 2 = 0 → ra.val % 2 = 0 → s.dev.eng[k].conv = some y → y ≠ c →
      RunsTo (.tconv k c rd ra rb rc) s (blocked s.dev k c 5 .pending)) ∧
    (tconv → rd.val % 2 = 0 → ra.val % 2 = 0 → (∀ y, s.dev.eng[k].conv = some y → y = c) →
      (∀ v, conv = some v → RunsTo (.tconv k c rd ra rb rc) s
        (retired s.dev k c ((pair x.g (v.extractLsb' 16 64)).set rc 0) (x.pc + 1))) ∧
      (conv = none → RunsTo (.tconv k c rd ra rb rc) s
        (retired { s.dev with tim := { s.dev.tim with evt := setBit s.dev.tim.evt 3 } } k c ((pair x.g 0).set rc 1) (x.pc + 1)))) ∧
    (waita → waiting → (s.dev.tim.raw.setWidth 32 - t).toNat < 2 ^ 31 → RunsTo (.waita k c ra imm) s next) ∧
    (waita → waiting → 2 ^ 31 ≤ (s.dev.tim.raw.setWidth 32 - t).toNat →
      RunsTo (.waita k c ra imm) s (blocked s.dev k c 4 (.until32 t))) ∧
    (waitd → waiting → imm = 0 → RunsTo (.waitd k c imm) s next) ∧
    (waitd → waiting → imm ≠ 0 → RunsTo (.waitd k c imm) s
      (blocked s.dev k c 4 (.until (s.dev.tim.raw + BitVec.ofNat 64 (imm.toNat * 160))))) ∧
    (∀ ws, x.wait = .done ws → (waita → RunsTo (.waita k c ra imm) s next) ∧ (waitd → RunsTo (.waitd k c imm) s next)) ∧
    (Up s → s.dev.eng[k].st = .run → x.st = .stalled →
      (∀ m, x.cause = 4 → x.wait = .until m → progAt s.dev.eng[k] x.pc = encI 0x37 0 0 imm.toNat → RunsTo (.stallEnd k c) s
        (if reached s.dev.tim.raw m = true then woken s.dev k c (.done []) else s.dev)) ∧
      (∀ m : Word, x.cause = 4 → x.wait = .until32 m → RunsTo (.stallEnd k c) s
        (if (s.dev.tim.raw.setWidth 32 - m).toNat < 2 ^ 31 then woken s.dev k c (.done []) else s.dev)) ∧
      (x.cause = 5 → RunsTo (.stallEnd k c) s (if s.dev.eng[k].conv = none then woken s.dev k c .none else s.dev))))

/-- On its turn RPOST with operands out of range or more than 14 words is ILLEGAL, with a cell still unsent it stalls
with cause 6, else it completes: to a reachable station its cell of scratch words stands in the egress slot, without a
route nothing is sent. MSYNC without mirror is ILLEGAL, out of step only completes, with a CONTEXT cell unsent it
stalls, else it queues one. Their stalls end when the cell has left. HALT halts at its pc. A word that is no encoding
faults ILLEGAL; ILLEGAL at a legal word changes nothing. Under these conditions on state and operands alone exec answers
the next state described, for .stallEnd, .illegal, .rpost, .msync, .halt. -/
def Obligations.IsaRingInstructions : Prop :=
  ∀ (s : State) (k : EngNo) (c : CtxNo) (ra rb rc : GReg) (nM1 : BitVec 4),
    let x := ctxOf s.dev k c
    let next := retired s.dev k c x.g (x.pc + 1)
    let b := greg s.dev k c rb
    let z := greg s.dev k c rc
    let good := b.toNat % 4 = 0 ∧ b.toNat < 2 ^ 30 ∧ z.toNat < 2 ^ 11 ∧ ¬ (z.getLsbD 10 = true ∧ z.getLsbD 9 = true)
    let rpost := Turn s k c (encR 0x38 0 ra rb rc nM1.toNat)
    let msync := Turn s k c (encI 0x39 0 0 0)
    let inStep := s.dev.pair.role = .active ∧ s.dev.pair.st = .inStep
    (rpost → (13 < nM1.toNat ∨ ¬ good) → RunsTo (.rpost k c ra rb rc nM1) s (faulted s.dev k c 9)) ∧
    (rpost → nM1.toNat ≤ 13 → good → s.dev.eng[k].egress ≠ none →
      RunsTo (.rpost k c ra rb rc nM1) s (blocked s.dev k c 6 .pending)) ∧
    (∀ st ep dest side, rpost → nM1.toNat ≤ 13 → good → s.dev.eng[k].egress = none → s.dev.eng[k].flips = [] →
      addressed s.dev (z.getLsbD 10) (z.toNat % 1024) b.toNat = some (st, ep, dest) → routeTo s.dev st = some side →
      Runs (.rpost k c ra rb rc nM1) s fun t =>
        ctxOf t k c = { x with pc := x.pc + 1, st := .ready, cause := 0, wait := .none } ∧
        (∀ cell, t.eng[k].egress = some cell → cell.ctype = 5 ∧ cell.dest = dest ∧ cell.epoch = ep ∧
          cell.pair = z.getLsbD 10 ∧ cell.seq = s.dev.ring.nextSeq ∧
          cell.payload = fitTo 64 (leBytes 4 b.toNat ++ leBytes 1 nM1.toNat ++ [0, 0, 0] ++
            (List.range (nM1.toNat + 1)).flatMap (fun i =>
              leBytes 4 (tabGet (0 : Word) s.dev.eng[k].scratch (((greg s.dev k c ra).toNat + i) % 16384)).toNat))) ∧
        t.eng[k].egress.isSome = true ∧ OnlyRing s.dev { t with eng := s.dev.eng }) ∧
    (rpost → nM1.toNat ≤ 13 → good → s.dev.eng[k].egress = none → s.dev.eng[k].flips = [] →
      (addressed s.dev (z.getLsbD 10) (z.toNat % 1024) b.toNat).all (fun way => decide (routeTo s.dev way.1 = none)) = true →
      RunsTo (.rpost k c ra rb rc nM1) s next) ∧
    (Up s → s.dev.eng[k].st = .run → x.st = .stalled →
      (x.cause = 6 → RunsTo (.stallEnd k c) s (if s.dev.eng[k].egress = none then woken s.dev k c .none else s.dev)) ∧
      (x.cause = 1 → progAt s.dev.eng[k] x.pc = encI 0x39 0 0 0 → RunsTo (.stallEnd k c) s
        (if s.dev.eng[k].ctxCell = true then s.dev else woken s.dev k c .none))) ∧
    (msync → x.cfg.getLsbD 24 = false → RunsTo (.msync k c) s (faulted s.dev k c 9)) ∧
    (msync → x.cfg.getLsbD 24 = true → ¬ inStep → RunsTo (.msync k c) s next) ∧
    (msync → x.cfg.getLsbD 24 = true → inStep → s.dev.eng[k].ctxCell = true →
      RunsTo (.msync k c) s (blocked s.dev k c 1 .pending)) ∧
    (msync → x.cfg.getLsbD 24 = true → inStep → s.dev.eng[k].ctxCell = false → RunsTo (.msync k c) s
      (onEng (mirrorQueue next (qEng k) (.context k c x.g)) k (fun e => { e with ctxCell := true }))) ∧
    (Turn s k c (encI 0x3A 0 0 0) → RunsTo (.halt k c) s
      (onEng (onCtx s.dev k c (fun x => { x with st := .halted, cause := 0 })) k (fun e => { e with last := c }))) ∧
    (∀ w, Turn s k c w → legalWord w = false → RunsTo (.illegal k c) s (faulted s.dev k c 9)) ∧
    (∀ w, Turn s k c w → legalWord w = true → RunsTo (.illegal k c) s s.dev)

/-- The opcode, the registers and the immediates of the four formats read back from the word at every value they admit;
the words of the opcodes of each format are legal, at every operand in its range: pairs even for TRD and TCONV, a word
below 24 for LQW, at most 14 words for RPOST; beyond them they are not. -/
def Obligations.IsaWordsRoundTrip : Prop :=
  ∀ (op : Fin 64) (a b c d : GReg),
    (∀ low : BitVec 4, let w := encR op.val a b c d low.toNat
      opOf w = op.val ∧ regD w = a ∧ regA w = b ∧ fld w 14 4 = c.val ∧ fld w 10 4 = d.val ∧ fld w 0 4 = low.toNat) ∧
    (∀ imm : BitVec 18, let w := encI op.val a b imm.toNat
      opOf w = op.val ∧ regD w = a ∧ regA w = b ∧ fld w 0 18 = imm.toNat) ∧
    (∀ imm : BitVec 16, let w := encU op.val a imm; opOf w = op.val ∧ regD w = a ∧ fld w 0 16 = imm.toNat) ∧
    (∀ (imm : BitVec 8) (x : BitVec 10), let w := encB op.val a b imm x
      opOf w = op.val ∧ regD w = a ∧ regA w = b ∧ fld w 10 8 = imm.toNat ∧ fld w 0 10 = x.toNat) ∧
    (0x01 ≤ op.val → op.val ≤ 0x08 → legalWord (encR op.val a b c 0 0) = true) ∧
    (∀ imm : BitVec 18, (0x09 ≤ op.val ∧ op.val ≤ 0x0C) ∨ (0x20 ≤ op.val ∧ op.val ≤ 0x23) →
      legalWord (encI op.val a b imm.toNat) = true) ∧
    (∀ sh : Fin 32, 0x0D ≤ op.val → op.val ≤ 0x0F → legalWord (encI op.val a b sh.val) = true) ∧
    (∀ imm : BitVec 16, op.val = 0x10 ∨ op.val = 0x11 → legalWord (encU op.val a imm) = true) ∧
    (∀ x : BitVec 10, 0x14 ≤ op.val → op.val ≤ 0x19 → legalWord (encB op.val a b 0 x) = true) ∧
    (∀ (imm : BitVec 8) (x : BitVec 10), op.val = 0x1A ∨ op.val = 0x1B → legalWord (encB op.val a 0 imm x) = true) ∧
    (∀ x : BitVec 10, op.val = 0x1C ∨ op.val = 0x1D → legalWord (encB op.val 0 0 0 x) = true) ∧
    legalWord (encB 0x1E a 0 0 0) = true ∧ legalWord (encI 0x2C a b 0) = true ∧ legalWord (encI 0x2D a 0 0) = true ∧
    legalWord (encI 0x31 a b 0) = true ∧ legalWord (encI 0x32 0 b 0) = true ∧ legalWord (encI 0x39 0 0 0) = true ∧
    legalWord (encI 0x3A 0 0 0) = true ∧
    (∀ v : Fin 16, legalWord (encI 0x28 0 b v.val) = true ∧ legalWord (encI 0x29 a 0 v.val) = true ∧
      legalWord (encI 0x2A a b v.val) = true) ∧
    (∀ imm : BitVec 18, legalWord (encI 0x2E 0 0 imm.toNat) = true ∧ legalWord (encI 0x36 0 b imm.toNat) = true ∧
      legalWord (encI 0x37 0 0 imm.toNat) = true) ∧
    (∀ v : Fin 1024, legalWord (encI 0x12 a b v.val) = true) ∧
    (legalWord (encI 0x34 a 0 0) = decide (a.val % 2 = 0)) ∧
    (legalWord (encR 0x35 a b c d 0) = (decide (a.val % 2 = 0) && decide (b.val % 2 = 0))) ∧
    (∀ v : Fin 32, legalWord (encI 0x30 a b v.val) = decide (v.val ≤ 23)) ∧
    (∀ n : BitVec 4, legalWord (encR 0x38 0 a b c n.toNat) = decide (n.toNat ≤ 13)) ∧
    ((op.val = 0 ∨ op.val = 0x13 ∨ op.val = 0x1F ∨ 0x3B ≤ op.val) → ∀ imm : BitVec 18, legalWord (encI op.val a b imm.toNat) = false)

/-- A receiving cell that runs appends its word, right-aligned and ordered by lsb_first, while its RX queue has room,
else sets rx_over; a sending cell loads its queue head, and at a word's end the next, else idles, with cont and an empty
queue setting tx_under; an edge in EDGE mode appends level and raw counter; on an edge of its clk_cell an RX_SYNC cell
samples its own level into its word, also, in STOPPING, at the one edge that finishes its bit in progress (R313); a
start edge in RX_ASYNC begins a word too. An input of bank B reads 0 while VIO_B is low (the moments of its levels are
the model's choice, log 154). That a bound cell rests unless its engine runs (log 30) and the order and moment of its
samples (log 118) are inferred. A host push to a full or absorbed cell sets host_refused; a pop of an empty one answers
0 with valid 0. No other cell changes. Under these conditions on state and operands alone exec answers the next state
described, for .pinRxWord, .pinTxLoad, .pinTxWordEnd, .pinEdge, .pinAsyncStart, .pinHostPush, .pinHostPop. -/
def Obligations.PinCellSteps : Prop :=
  ∀ (s : State) (p : PinNo), Up s →
    let c := pinAt s.dev p
    let len := if c.cfg.toNat / 1024 % 32 = 0 then 32 else c.cfg.toNat / 1024 % 32
    let mode := c.cfg.toNat % 8
    let took := fun (x : PinCell) (w : Word) => onPin s.dev p (fun _ =>
      if c.rxq.length < pinCap c then { x with rxq := c.rxq ++ [w] } else { x with evt := setBit c.evt 1 })
    let high := pinOff p 0x18
    let lsb := c.cfg.getLsbD 3
    let dead := fun (q : PinNo) => s.dev.glb.vioBLow && decide (64 ≤ q.val)
    (∀ w : Word,
      let v := BitVec.ofNat 32 ((List.range len).foldl (fun a i =>
        a + 2 ^ i * (w.getLsbD (if lsb then i else len - 1 - i) && !dead p).toNat) 0)
      (pinFinishes s.dev p = true → absorbed s.dev p = false →
        (mode = 3 → RunsTo (.pinRxWord p w) s (took { c with shifter := v, busy := false, bits := 0 } v)) ∧
        (mode = 4 → c.busy = true → RunsTo (.pinRxWord p w) s (took { c with shifter := v, busy := false, bits := 0 } v)) ∧
        (mode ≠ 3 → mode ≠ 4 → RunsTo (.pinRxWord p w) s s.dev)) ∧
      (pinFinishes s.dev p = false → RunsTo (.pinRxWord p w) s s.dev)) ∧
    (pinRuns s.dev p = true → absorbed s.dev p = false → mode = 2 → c.busy = false →
      (∀ w r, c.txq = w :: r → RunsTo (.pinTxLoad p) s (onPin s.dev p (fun _ => { c with
        txq := r, shifter := w, bits := 0, busy := true }))) ∧
      (c.txq = [] → RunsTo (.pinTxLoad p) s s.dev)) ∧
    (pinRuns s.dev p = true → mode = 2 → c.busy = true →
      (∀ w r, c.txq = w :: r → RunsTo (.pinTxWordEnd p) s (onPin s.dev p (fun _ => { c with
        txq := r, shifter := w, bits := 0, busy := true }))) ∧
      (c.txq = [] → RunsTo (.pinTxWordEnd p) s (onPin s.dev p (fun _ => { c with
        busy := false, bits := 0, evt := if c.cfg.getLsbD 9 then setBit c.evt 0 else c.evt })))) ∧
    (c.busy = false → RunsTo (.pinTxWordEnd p) s s.dev) ∧
    (∀ level : Bool,
      let seen := level && !dead p
      let w := BitVec.ofNat 32 (s.dev.tim.raw.toNat % 2 ^ 31 + seen.toNat * 2 ^ 31)
      let alone := ∀ q : PinNo, samplesAt s.dev p seen q = false
      let sampled := fun (t : Device) => { t with pin := s.dev.pin } = s.dev ∧
        ∀ q : PinNo, q ≠ p → (samplesAt s.dev p seen q = false → pinAt t q = pinAt s.dev q) ∧
          (samplesAt s.dev p seen q = true →
            let x := pinAt s.dev q
            let own := x.level && !dead q
            let n := x.bits.toNat
            let full := if x.cfg.toNat / 1024 % 32 = 0 then 32 else x.cfg.toNat / 1024 % 32
            let old := if n = 0 then 0 else x.shifter.toNat
            let v := BitVec.ofNat 32 (if x.cfg.getLsbD 3 then old + own.toNat * 2 ^ n else 2 * old + own.toNat)
            let y := { x with shifter := v, bits := 0, busy := false, finished := !pinRuns s.dev q }
            pinAt t q = if n + 1 < full then { y with bits := x.bits + 1, busy := true }
              else if x.rxq.length < pinCap x then { y with rxq := x.rxq ++ [v] } else { y with evt := setBit x.evt 1 })
      let starts := mode = 4 ∧ pinRuns s.dev p = true ∧ absorbed s.dev p = false ∧ c.busy = false ∧ edgeMatches c seen = true
      (alone → mode = 5 → pinRuns s.dev p = true → absorbed s.dev p = false → edgeMatches c seen = true →
        RunsTo (.pinEdge p level) s (took { c with level := seen } w)) ∧
      (alone → (mode ≠ 5 ∨ edgeMatches c seen = false) →
        RunsTo (.pinEdge p level) s (onPin s.dev p (fun c => { c with level := seen }))) ∧
      (Runs (.pinEdge p level) s fun t => (pinAt t p).level = seen ∧ sampled t) ∧
      (starts → Runs (.pinAsyncStart p level) s fun t =>
        pinAt t p = { c with level := seen, busy := true, bits := 0, shifter := 0 } ∧ sampled t) ∧
      (¬ starts → exec (.pinAsyncStart p level) s = exec (.pinEdge p level) s)) ∧
    (∀ w : Word,
      (absorbed s.dev p = true ∨ pinCap c ≤ c.txq.length →
        RunsTo (.pinHostPush p w) s (onPin s.dev p (fun c => { c with evt := setBit c.evt 2 }))) ∧
      (absorbed s.dev p = false → c.txq.length < pinCap c →
        RunsTo (.pinHostPush p w) s (onPin s.dev p (fun c => { c with txq := c.txq ++ [w] })))) ∧
    (∀ w r, absorbed s.dev p = false → c.rxq = w :: r → RunsTo (.pinHostPop p) s
      (let d := onPin s.dev p (fun c => { c with rxq := r })
       { d with glb := { d.glb with rdata := w, hiLatch := tabSet (0 : Word) d.glb.hiLatch high 1 } })) ∧
    ((absorbed s.dev p = true ∨ c.rxq = []) → RunsTo (.pinHostPop p) s
      { s.dev with glb := { s.dev.glb with rdata := 0, hiLatch := tabSet (0 : Word) s.dev.glb.hiLatch high 0 } })

/-- With the loader at work both answer BUSY (0x18) and nothing else changes. Each reads the staged image under its
banks, and waits where one is not to be had. With the banks free and agreeing check bits a verify, also under a host's
hold (inferred, log 59), writes its result, 0x01 or the first failed check's code, with verify_only, and changes nothing
else but the concourse. An apply whose checks fail writes that code alone; with another district held it answers BUSY
(log 59); one that passes, for a district of channels or engines not yet held, holds it, at step 3 with the image's
sections; for D13 it is complete at once; for a district that the host holds drained it writes the sections and the
host's hold stays, with no epoch advanced; one not yet drained waits for the drain. Under these conditions on state and
operands alone exec answers the next state described, for .imageVerify, .imageApply. -/
def Obligations.ImageVerifyAndApply : Prop :=
  ∀ s : State, Up s →
    let m := s.dev.img
    let len := min m.src.toNat m.stageSize.toNat
    let b := (List.range len).map (fun i => sramByte s.dev (m.stage.toNat + i))
    let k := maskDistrict (b2 b 14)
    let idle := m.image = none ∧ m.reading = none
    let readable := m.stage.toNat % 4 = 0 ∧ m.stage.toNat + len ≤ 0x1000000 ∧
      (∀ i, i < len → flipsAt s.dev (m.stage.toNat + i / 4 * 4) = 0) ∧
      (∀ r : ResNo, r.val < 16 → (arbOf s.dev r).owner = none ∧ canUse s.dev loaderReq r = true)
    let only := fun (t : Device) => hush (noBanks { t with img := m }) = hush (noBanks s.dev) ∧ t.img.held = m.held ∧
      t.img.image = none ∧ t.img.reading = none ∧ t.img.epochs = m.epochs
    let rest := fun (t : Device) => t.sram = s.dev.sram ∧ t.flash = s.dev.flash ∧ t.tim = s.dev.tim
    (¬ idle →
      RunsTo .imageVerify s (setResult s.dev ⟨0x18, 0, 0, 0⟩ true) ∧ RunsTo .imageApply s (setResult s.dev ⟨0x18, 0, 0, 0⟩ false)) ∧
    (idle → 0 < len → ¬ BankFree s.dev loaderReq m.stage.toNat → Runs .imageVerify s fun t =>
      t.img = { m with busy := true, step := 1, reading := some (false, len, []) } ∧ OnlyBanks s.dev { t with img := m }) ∧
    (idle → readable → Runs .imageVerify s fun t => only t ∧ t.img.resVerify = true ∧
      (∀ r, (validate s.dev b len false false).1 = some r → t.img.resCode = BitVec.ofNat 8 r.code ∧
        t.img.resOffs = BitVec.ofNat 32 r.offs) ∧
      ((validate s.dev b len false false).1 = none → t.img.resCode = 0x01)) ∧
    (idle → readable → (∀ j, m.held = some j → j ≠ k → Runs .imageApply s fun t => only t ∧ t.img.resVerify = false ∧
      t.img.resCode = 0x18)) ∧
    (idle → readable → (m.held = none ∨ m.held = some k) → ∀ r, (validate s.dev b len true false).1 = some r →
      Runs .imageApply s fun t => only t ∧
        t.img.resVerify = false ∧ t.img.resCode = BitVec.ofNat 8 r.code ∧ t.img.resOffs = BitVec.ofNat 32 r.offs) ∧
    (idle → readable → (validate s.dev b len true false).1 = none →
      let ss := (validate s.dev b len true false).2
      (m.held = none → k ≠ 13 → Runs .imageApply s fun t =>
        t.img.held = some k ∧ t.img.byHost = false ∧ t.img.drained = false ∧ t.img.busy = true ∧ t.img.step = 3 ∧
        t.img.image = some ss ∧ t.img.resCode = m.resCode ∧ t.img.epochs = m.epochs ∧ rest t) ∧
      (m.held = none → k = 13 → Runs .imageApply s fun t =>
        t.img.held = none ∧ t.img.image = none ∧ t.img.resCode = 0x01 ∧ t.img.epochs[13] = m.epochs[13] + 1 ∧
        t.ring.epoch = s.dev.ring.epoch + 1 ∧ t.con.slotsNew = slotTab (bodyOf ss 4 13) ∧
        t.con.slotsDue = slotTab (bodyOf ss 4 13) ∧ t.ch = s.dev.ch ∧ t.eng = s.dev.eng ∧ rest t) ∧
      (m.held = some k → m.drained = false → k ≠ 13 → Runs .imageApply s fun t =>
        t.img.held = some k ∧ t.img.byHost = m.byHost ∧ t.img.drained = false ∧ t.img.step = 3 ∧ t.img.image = some ss ∧
        t.ch = s.dev.ch ∧ t.eng = s.dev.eng ∧ rest t) ∧
      (m.held = some k → m.drained = true → m.byHost = true → Runs .imageApply s fun t =>
        t.img.held = some k ∧ t.img.byHost = true ∧ t.img.drained = true ∧ t.img.image = none ∧ t.img.step = 0 ∧
        t.img.resCode = 0x01 ∧ t.img.epochs = m.epochs ∧ t.ring.epoch = s.dev.ring.epoch ∧ t.con.loaderFreeze = 0 ∧
        (∀ n : ChanNo, n.val / 8 + 1 = k → Placed ss n t ∧ (chan t n).line.req = lineOf (b1 (bodyOf ss 2 k) (32 * (n.val % 8)))) ∧
        (∀ n : ChanNo, n.val / 8 + 1 ≠ k → chan t n = chan s.dev n) ∧ t.flash = s.dev.flash ∧ t.tim = s.dev.tim))

/-- A hold of no district answers 0x0C with bad_code, with another held BUSY (0x18); of the one held nothing changes;
else the district is held by the host, the ballots of its channels are over and its running engines stopping. A drain
that is not complete changes nothing; a complete one without an image marks it drained. With an image and its banks to
be had DRAIN_COMPLETE goes through steps 4 to 8: the channels of a bus district have their roles, timing, journals and
queues from the image, D9 to D12 their engines, the district is released with result 0x01 and its epoch and the
station's advance; an apply whose bank another owns waits in step 4 (log 119, inferred). A timeout, once hold_ms has
passed, ends the hold with 0x19 and puts an ended ballot back (the model's choice, log 120), its waiting frame anew. A
release of a drained district ends the hold and advances its epoch; of one not held nothing changes. Under these
conditions on state and operands alone exec answers the next state described, for .districtHold, .districtRelease,
.drainComplete, .holdTimeout. -/
def Obligations.DistrictHolds : Prop :=
  ∀ (s : State) (src : Sys2Proof.Src) (kk : BitVec 4), Up s →
    let m := s.dev.img
    let k := kk.toNat
    let idle := m.image = none ∧ m.reading = none
    let engine := fun (y : Section) => (Fin.ofNat 8 (b1 y.body 0) : EngNo)
    let timeUp := reached s.dev.tim.raw (s.dev.img.holdAt + BitVec.ofNat 64 (m.holdMs.toNat * 160000))
    let bad := glbErr (setResult s.dev ⟨0x0C, k, 0, 0⟩ false) 1 src 0x1000000
    (k = 0 ∨ 14 ≤ k → RunsTo (.districtHold src kk) s bad ∧ RunsTo (.districtRelease src kk) s bad) ∧
    (0 < k → k < 14 →
      (¬ idle ∨ (∃ j, m.held = some j ∧ j ≠ k) → RunsTo (.districtHold src kk) s (setResult s.dev ⟨0x18, k, 0, 0⟩ false)) ∧
      (idle → m.held = some k → RunsTo (.districtHold src kk) s s.dev) ∧
      (idle → m.held = none → Runs (.districtHold src kk) s fun t =>
        t.img.held = some k ∧ t.img.byHost = true ∧ t.img.drained = decide (k = 13) ∧
        (∀ n : ChanNo, n.val / 8 + 1 = k → (chan t n).slp.phase = .idle ∧ (chan t n).line = (chan s.dev n).line) ∧
        (∀ n : ChanNo, n.val / 8 + 1 ≠ k → chan t n = chan s.dev n) ∧
        (∀ e : EngNo, e.val / 2 + 9 = k → s.dev.eng[e].st = .run → t.eng[e].st = .stopping) ∧
        (∀ e : EngNo, e.val / 2 + 9 ≠ k → t.eng[e] = s.dev.eng[e]) ∧ t.sram = s.dev.sram ∧ t.flash = s.dev.flash) ∧
      (m.held ≠ some k → RunsTo (.districtRelease src kk) s s.dev) ∧
      (m.held = some k → m.drained = false → RunsTo (.districtRelease src kk) s s.dev) ∧
      (m.held = some k → m.drained = true → idle → Runs (.districtRelease src kk) s fun t =>
        t.img.held = none ∧ t.img.busy = false ∧ t.ring.epoch = s.dev.ring.epoch + 1 ∧
        (∀ h : k < 14, t.img.epochs[k] = m.epochs[k] + 1) ∧
        (∀ n : ChanNo, n.val / 8 + 1 ≠ k → chan t n = chan s.dev n) ∧ t.sram = s.dev.sram ∧ t.flash = s.dev.flash)) ∧
    (m.held = none → RunsTo .drainComplete s s.dev ∧ RunsTo .holdTimeout s s.dev) ∧
    (∀ j, m.held = some j → m.drained = true → m.image = none → RunsTo .drainComplete s s.dev) ∧
    (∀ j, m.held = some j → m.drained = false → districtDrained s.dev j = false → RunsTo .drainComplete s s.dev) ∧
    (∀ j ss r rest x, m.held = some j → m.drained = true → m.image = some ss → movedBanks s.dev j ss = r :: rest →
      (arbOf s.dev r).owner = some x → x ≠ loaderReq → Runs .drainComplete s fun t =>
        t.img = { m with step := 4 } ∧ t.con.loaderFreeze.getLsbD r.val = true ∧ t.ch = s.dev.ch ∧ t.eng = s.dev.eng ∧
        t.sram = s.dev.sram) ∧
    (∀ j ss, m.held = some j → m.drained = false → districtDrained s.dev j = true → m.image = some ss → m.byHost = false →
      1 ≤ j → j ≤ 12 → (∀ r ∈ movedBanks s.dev j ss, (arbOf s.dev r).owner = none ∧ mayUse s.dev loaderReq r = true) →
      Runs .drainComplete s fun t =>
        t.img.held = none ∧ t.img.image = none ∧ t.img.drained = false ∧ t.img.step = 0 ∧ t.img.busy = false ∧
        t.img.resCode = 0x01 ∧ t.con.loaderFreeze = 0 ∧ t.ring.epoch = s.dev.ring.epoch + 1 ∧
        (∀ h : j < 14, t.img.epochs[j] = m.epochs[j] + 1) ∧
        (∀ n : ChanNo, n.val / 8 + 1 = j → Placed ss n t ∧
          (s.dev.pair.role = .unpaired → (Vaon s → (chan t n).line.token = mayDrive (chan t n).fe.role) ∧
            ((chan t n).fe.role = .head → (chan t n).line.req = lineOf (b1 (bodyOf ss 2 j) (32 * (n.val % 8)))))) ∧
        (∀ n : ChanNo, n.val / 8 + 1 ≠ j → chan t n = chan s.dev n) ∧
        (∀ e : EngNo, e.val / 2 + 9 ≠ j → (∀ y ∈ ss, y.stype = 6 → y.district = j → engine y ≠ e) → t.eng[e] = s.dev.eng[e]) ∧
        (∀ (sec : Section) (e : EngNo), sec ∈ ss → sec.stype = 6 → sec.district = j → engine sec = e →
          (∀ y ∈ ss, y.stype = 6 → y.district = j → engine y = e → y = sec) → 9 ≤ j → t.eng[e].prog = wordTab sec.body 144 (b2 sec.body 2) ∧ t.eng[e].ctxEn = bw sec.body 4) ∧
        t.flash = s.dev.flash ∧ t.tim = s.dev.tim) ∧
    (∀ j, m.held = some j → m.drained = false → districtDrained s.dev j = true → m.image = none → Runs .drainComplete s fun t =>
      t.img = { m with drained := true, step := 0 } ∧
      (∀ n : ChanNo, n.val / 8 + 1 = j → Vaon s → (chan s.dev n).line.state = .normal → (chan s.dev n).fe.role ≠ .off →
        (chan t n).line.state = .listen) ∧
      (∀ n : ChanNo, n.val / 8 + 1 ≠ j → chan t n = chan s.dev n) ∧ t.eng = s.dev.eng ∧ t.sram = s.dev.sram) ∧
    (∀ j, m.held = some j → (m.drained = true ∨ timeUp = false) → RunsTo .holdTimeout s s.dev) ∧
    (∀ j, m.held = some j → m.drained = false → timeUp = true → Runs .holdTimeout s fun t =>
      t.img.held = none ∧ t.img.byHost = false ∧ t.img.busy = false ∧ t.img.image = none ∧ t.img.resCode = 0x19 ∧
      t.img.resDist = BitVec.ofNat 4 j ∧ (m.save = [] → t.eng = s.dev.eng) ∧ (m.saveBal = [] → t.ch = s.dev.ch ∧ t.sram = s.dev.sram) ∧
      (∀ x, m.saveBal = [x] → (chan s.dev x.chan).slp.phase = .idle →
        (x.slp.due = none → (chan t x.chan).slp.phase = x.slp.phase ∧
          (chan t x.chan).slp.lastResult = x.slp.lastResult ∧ (chan t x.chan).slp.holds = x.slp.holds) ∧
        ∀ n : ChanNo, n ≠ x.chan → chan t n = chan s.dev n) ∧ t.flash = s.dev.flash ∧ t.tim = s.dev.tim)

/-- A poll returns the ready response and leaves it; an aborted frame is counted. A request while one waits for ring
answers joins the queue, one of the port's own discarding the unread response and any not yet begun (log 124). A request
whose CRC fails is answered BAD_CRC (0x10) and counted, a command that is not available BAD_COMMAND (0x11), and nothing
else changes. RECOVERY_PING answers its payload. A RESERVED_COMMAND that another row names changes nothing (a row acts
only on its own action: the model's choice, log 76). BAD_COMMAND before the later checks is inferred (log 42). A part 0
of a frame of more parts at the front of the drop queue begins its station's reassembly anew with its data and the time;
other stations' stay, and EVENT cells now in front leave (inferred, log 44). A reassembly 10 ms after its part 0 is
dropped, a younger one stays. A response part of another station is held, with block lock on a ring lane, in JOINING or
JOINED. A part that arrives after a refused one of its frame is discarded; a part 0 begins a frame anew; one that finds
the drop queue full is answered BUSY, and no part of its frame that waits there is served (R375). An NSP_REQ row with
another cell at the front changes nothing. Under these conditions on state and operands alone exec answers the next
state described, for .cellArrival, .nspPoll, .nspFrameAborted, .read, .write, .updateOpen, .updateChunk, .updateClose,
.commit, .slotSelectTrial, .slotSelectCancel, .slotSelectRestart, .recoveryPing, .reservedCommand, .nspReq, .nspResp,
.nspReassemblyTimeout. -/
def Obligations.ServiceFramesAndTunnels : Prop :=
  (∀ (s : State) (o : Sys2Proof.NspFrom) (q : Sys2Proof.NspReq), Up s →
    let sv := s.dev.svc
    let echo := echoSeq s.dev o
    let free := NspFree s.dev o
    let u := takenUp s.dev o []
    let crcBad := fun (code : Sys2Proof.Byte) => nspReply { u with svc := { u.svc with crcErr := cntUp sv.crcErr } } o echo
      (responseFrame code q.seq 0x10 [])
    let isCommand := fun (c : Sys2Proof.Instr) (code : Sys2Proof.Byte) =>
      (c, code) ∈ [(.read o q, 0x01), (.write o q, 0x02), (.updateOpen o q, 0x10), (.updateChunk o q, 0x11),
        (.updateClose o q, 0x12), (.commit o q, 0x13), (.recoveryPing o q, 0x15)] ∨
      (code = 0x14 ∧ (c, leAt q.payload 0 1) ∈ [(.slotSelectTrial o q, 1), (.slotSelectCancel o q, 2), (.slotSelectRestart o q, 3)])
    RunsTo .nspPoll s { s.dev with svc := { sv with miso := sv.resp.getD [] } } ∧
    RunsTo .nspFrameAborted s { s.dev with svc := { sv with framing := cntUp sv.framing } } ∧
    (∀ c code, isCommand c code →
      (sv.waiting ≠ none → RunsTo c s { u with svc := { u.svc with nspQueue := u.svc.nspQueue ++ [(o, echo, code, q)] } }) ∧
      (free → q.crc ≠ crc16 (requestBody code q) → RunsTo c s (crcBad code)) ∧
      (free → q.crc = crc16 (requestBody code q) → available s.dev code q = false →
        RunsTo c s (nspReply u o echo (responseFrame code q.seq 0x11 [])))) ∧
    (free → q.crc = crc16 (requestBody 0x15 q) → q.payload = [] → q.addr = 0x800000000000#48 →
      RunsTo (.recoveryPing o q) s (nspReply u o echo (responseFrame 0x15 q.seq 0 (pingPayload s.dev)))) ∧
    (∀ code : Sys2Proof.Byte, free → knownCode code = false → q.crc = crc16 (requestBody code q) →
      RunsTo (.reservedCommand o code q) s (nspReply u o echo (responseFrame code q.seq 0x11 []))) ∧
    (∀ code : Sys2Proof.Byte, available s.dev code q = true → (code ≠ 0x14 ∨ leAt q.payload 0 1 ∈ [1, 2, 3]) →
      RunsTo (.reservedCommand o code q) s s.dev) ∧
    (leAt (pingPayload s.dev) 6 2 = if s.dev.ring.numbered then (ownNumber s.dev).toNat else 0xFFFF) ∧
    (∀ f, o = .port → nspReply u o echo f = { u with svc := { u.svc with resp := some f } }) ∧
    (leAt q.payload 0 1 ≠ 1 → RunsTo (.slotSelectTrial o q) s s.dev)) ∧
  (∀ (s : State) (at_ : Sys2Proof.Side), Up s →
    (∀ c rest, dropOf s.dev at_ = c :: rest → c.ctype = 13 → leAt c.payload 2 1 = 0 → 0 < leAt c.payload 3 1 →
      Runs (.nspReq at_) s fun t => dropOf t at_ = rest.dropWhile (fun x => decide (x.ctype = 8)) ∧
        ({ station := c.src, length := leAt c.payload 0 2, lastPart := leAt c.payload 3 1, next := 1
           bytes := (fitTo 64 c.payload).drop 4, start := s.dev.tim.raw } : Reasm) ∈ t.svc.reasm ∧
        (∀ x : Reasm, x.station ≠ c.src → (x ∈ t.svc.reasm ↔ x ∈ s.dev.svc.reasm)) ∧
        t.sram = s.dev.sram ∧ t.flash = s.dev.flash ∧ t.ch = s.dev.ch) ∧
    (∀ c rest, dropOf s.dev at_ = c :: rest → c.ctype ≠ 13 → RunsTo (.nspReq at_) s s.dev) ∧
    (∀ c : Sys2Proof.RCell, RunsTo (.nspResp c) s (if (s.dev.ring.east.blockLock = true ∨ s.dev.ring.west.blockLock = true) ∧
        (s.dev.ring.join = .joining ∨ s.dev.ring.join = .joined) then
      { s.dev with svc := { s.dev.svc with tunnel := some c } } else s.dev)) ∧
    (∀ c : Sys2Proof.RCell, Sound c → (port s.dev (sidePort at_)).blockLock = true → s.dev.ring.join = .joined → c.src ≠ s.dev.ring.station →
      c.dest = s.dev.ring.station → c.bcast = false → c.pair = false → c.ctype = 13 → c.epoch = s.dev.ring.epoch →
      let part := leAt c.payload 2 1
      let full := 64 ≤ (dropOf s.dev at_).length
      (part ≠ 0 → c.src ∈ s.dev.svc.nspRefused → RunsTo (.cellArrival at_ c) s (met s.dev (sidePort at_))) ∧
      (part = 0 → ¬ full → Runs (.cellArrival at_ c) s fun t => dropOf t at_ = dropOf s.dev at_ ++ [hopped c] ∧
        c.src ∉ t.svc.nspRefused ∧ t.sram = s.dev.sram ∧ t.flash = s.dev.flash ∧ t.ch = s.dev.ch) ∧
      ((part = 0 ∨ c.src ∉ s.dev.svc.nspRefused) → full → Runs (.cellArrival at_ c) s fun t => c.src ∈ t.svc.nspRefused ∧
        (∀ x ∈ dropOf t at_, x ∈ dropOf s.dev at_) ∧
        (∀ x, routeTo s.dev c.src = some x → wrapped s.dev x = false → ∃ y, (qDrop at_, y) ∈ outOf t x ∧ y.ctype = 14 ∧
          y.dest = c.src ∧ y.epoch = 3 ∧ y.seqEcho = c.seq) ∧ t.sram = s.dev.sram ∧ t.flash = s.dev.flash ∧ t.ch = s.dev.ch)) ∧
    (∀ station : BitVec 10, Runs (.nspReassemblyTimeout station) s fun t =>
      (∀ x : Reasm, x ∈ t.svc.reasm ↔ x ∈ s.dev.svc.reasm ∧
        ¬ (x.station = station ∧ reached s.dev.tim.raw (x.start + BitVec.ofNat 64 1600000) = true)) ∧
      { t with svc := { t.svc with reasm := s.dev.svc.reasm } } = s.dev))

/-- A READ of this module's window, named as local or by its number in use (served here with its own status: inferred,
log 69), answers the words in ascending order, or UNMAPPED (1) when one is not mapped; of a payload that is not one byte
BAD_LENGTH (0x12), which comes before FORMAT (log 42, inferred), of more than 64 words or a misaligned local address
FORMAT (2), with bad_access set for the access (log 114, inferred); of a misaligned numbered one at the service port
LOCAL_FORMAT (9). A WRITE writes its words in ascending order and answers OK, or UNMAPPED when one is not mapped; of an
empty, too long or odd payload BAD_LENGTH; in recovery mode BAD_COMMAND (0x11). Each is done once the banks it takes are
the housekeeper's for the asking, else it waits. A READ of a station with no route answers NO_ROUTE (7). Under these
conditions on state and operands alone exec answers the next state described, for .read, .write. -/
def Obligations.ServiceReadAndWrite : Prop :=
  ∀ (s : State) (o : Sys2Proof.NspFrom) (q : Sys2Proof.NspReq), Up s → NspFree s.dev o →
    let u := takenUp s.dev o []
    let echo := echoSeq s.dev o
    let n := leAt q.payload 0 1 + 1
    let off := q.addr.toNat % 2 ^ 30
    let isLocal := q.addr.toNat / 2 ^ 30 = 2 ^ 17
    let named := s.dev.ring.numbered = true ∧ q.addr.toNat / 2 ^ 30 = (ownNumber s.dev).toNat
    let own := isLocal ∨ named
    let said := fun (x : Device) (code : Sys2Proof.Byte) (st : Nat) (p : List Sys2Proof.Byte) =>
      nspReply x o echo (responseFrame code q.seq st p)
    let bad := badAccess u (nspSrc o) off
    (q.crc = crc16 (requestBody 0x01 q) →
      let rs := readManyNeeds s.dev off n
      let r := nspReadMany (takenUp s.dev o rs) (nspSrc o) off n
      (q.payload.length ≠ 1 → RunsTo (.read o q) s (said u 0x01 0x12 [])) ∧
      (q.payload.length = 1 → 64 < n → RunsTo (.read o q) s (said u 0x01 2 [])) ∧
      (q.payload.length = 1 → n ≤ 64 → (isLocal ∨ (named ∧ o ≠ .port)) → off % 4 ≠ 0 → RunsTo (.read o q) s (said bad 0x01 2 [])) ∧
      (q.payload.length = 1 → n ≤ 64 → named → o = .port → off % 4 ≠ 0 → RunsTo (.read o q) s (said u 0x01 9 [])) ∧
      (q.payload.length = 1 → n ≤ 64 → own → off % 4 = 0 → canAll s.dev houseReq rs = true →
        (r.1.all (fun w => w.2) = true → RunsTo (.read o q) s (said r.2 0x01 0 (r.1.flatMap (fun w => leBytes 4 w.1.toNat)))) ∧
        (r.1.all (fun w => w.2) = false → RunsTo (.read o q) s (said r.2 0x01 1 []))) ∧
      (q.payload.length = 1 → n ≤ 64 → own → off % 4 = 0 → canAll s.dev houseReq rs = false →
        Runs (.read o q) s (NspWaits s.dev o (o, echo, 0x01, q) rs)) ∧
      (q.payload.length = 1 → n ≤ 64 → o = .port → q.addr.toNat < 2 ^ 40 → off % 4 = 0 →
        ¬ named →
        routeTo s.dev (BitVec.ofNat 10 (q.addr.toNat / 2 ^ 30)) = none → RunsTo (.read o q) s (said u 0x01 7 []))) ∧
    (q.crc = crc16 (requestBody 0x02 q) → s.dev.svc.recovery = true → RunsTo (.write o q) s (said u 0x02 0x11 [])) ∧
    (q.crc = crc16 (requestBody 0x02 q) → s.dev.svc.recovery = false →
      let rs := writeManyNeeds s.dev off (wordsOf q.payload)
      let r := writeMany (takenUp s.dev o rs) (nspSrc o) off (wordsOf q.payload)
      let whole := q.payload ≠ [] ∧ q.payload.length ≤ 256 ∧ q.payload.length % 4 = 0
      (¬ whole → RunsTo (.write o q) s (said u 0x02 0x12 [])) ∧
      (whole → isLocal → off % 4 ≠ 0 → RunsTo (.write o q) s (said bad 0x02 2 [])) ∧
      (whole → own → off % 4 = 0 → canAll s.dev houseReq rs = true →
        RunsTo (.write o q) s (said r.2 0x02 (if r.1 then 0 else 1) [])) ∧
      (whole → own → off % 4 = 0 → canAll s.dev houseReq rs = false →
        Runs (.write o q) s (NspWaits s.dev o (o, echo, 0x02, q) rs)))

/-- UPDATE_OPEN of a good length on a healthy flash with the closed mark erased opens a session of its source; a trial
running answers 0x16, a bad length 0x12, another owner's session BUSY (3). UPDATE_CHUNK in order erases the sectors it
reaches first and programs its bytes, the state area but for, as NOR flash does, and changes no other byte; out of order
0x14, with no session 0x13. UPDATE_CLOSE of an incomplete slot ends the session, as does one of its owner with a
payload. A session at its time ends. Under these conditions on state and operands alone exec answers the next state
described, for .updateOpen, .updateChunk, .updateClose, .updateSessionTimeout. -/
def Obligations.UpdateSessions : Prop :=
  ∀ (s : State) (o : Sys2Proof.NspFrom) (q : Sys2Proof.NspReq), Up s → NspFree s.dev o → q.addr = 0x800000000000#48 →
    let sv := s.dev.svc
    let d := takenUp s.dev o []
    let said := fun (x : Device) (code : Sys2Proof.Byte) (st : Nat) (p : List Sys2Proof.Byte) =>
      nspReply x o (echoSeq s.dev o) (responseFrame code q.seq st p)
    let len := leAt q.payload 0 4
    let mine := fun (x : Session) => x.owner = ownerOf o
    let b := otherSlot s.dev
    let due := rawAdd s.dev.tim.raw (30000 * msTicks)
    let busy := fun (x : Session) (code : Sys2Proof.Byte) => said d code 3 (leBytes 2 x.owner.toNat)
    (q.crc = crc16 (requestBody 0x10 q) → q.payload.length = 4 →
      (sv.session = none → sv.trial = true → RunsTo (.updateOpen o q) s (said d 0x10 0x16 [])) ∧
      (sv.session = none → sv.trial = false → (len < 64 ∨ 0x800000 < len ∨ len % 4 ≠ 0) →
        RunsTo (.updateOpen o q) s (said d 0x10 0x12 [])) ∧
      (sv.session = none → sv.trial = false → 64 ≤ len → len ≤ 0x800000 → len % 4 = 0 → sv.sfdpOk = true →
        slotField s.dev b 32 = 0xFFFFFFFF#32 → Runs (.updateOpen o q) s fun t =>
          t.svc.session = some { owner := ownerOf o, length := len, written := 0, last := none, due := due } ∧
          t.flash = s.dev.flash ∧ t.sram = s.dev.sram ∧ t.ch = s.dev.ch ∧ t.tim = s.dev.tim) ∧
      (∀ x, sv.session = some x → ¬ mine x → RunsTo (.updateOpen o q) s (busy x 0x10))) ∧
    (q.crc = crc16 (requestBody 0x11 q) → 8 ≤ q.payload.length → q.payload.length ≤ 1028 → q.payload.length % 4 = 0 →
      let bs := q.payload.drop 4
      let base := slotBase b
      (sv.session = none → RunsTo (.updateChunk o q) s (said d 0x11 0x13 [])) ∧
      (∀ x, sv.session = some x →
        (¬ mine x → RunsTo (.updateChunk o q) s (busy x 0x11)) ∧
        (mine x → x.last ≠ some (len, bs) → len ≠ x.written → RunsTo (.updateChunk o q) s
          (said { d with svc := { d.svc with session := some { x with due := due } } } 0x11 0x14 [])) ∧
        (mine x → x.last ≠ some (len, bs) → len = x.written → len + bs.length ≤ x.length → x.length ≤ 0x800000 →
          s.dev.flash.broken = false → Runs (.updateChunk o q) s fun t =>
            t.svc.session = some { x with written := len + bs.length, last := some (len, bs), due := due } ∧
            (∀ i, i < bs.length → (len + i < 32 ∨ 64 ≤ len + i) → len ≤ (len + i) / 65536 * 65536 →
              flashByte t (base + len + i) = bs.getD i 0) ∧
            (∀ i, i < bs.length → (len + i < 32 ∨ 64 ≤ len + i) → (len + i) / 65536 * 65536 < len →
              flashByte t (base + len + i) = flashByte s.dev (base + len + i) &&& bs.getD i 0) ∧
            (∀ a, ¬ (base + len ≤ a ∧ a < base + len + bs.length) →
              (∀ j, j < 128 → len ≤ j * 65536 → j * 65536 < len + bs.length → a / 65536 ≠ base / 65536 + j) →
              flashByte t a = flashByte s.dev a) ∧
            t.sram = s.dev.sram ∧ t.ch = s.dev.ch ∧ t.tim = s.dev.tim))) ∧
    (∀ x, q.crc = crc16 (requestBody 0x12 q) → q.payload ≠ [] → sv.session = some x → mine x → Runs (.updateClose o q) s fun t =>
      t.svc.session = none ∧ t.flash = s.dev.flash ∧ t.sram = s.dev.sram ∧ t.ch = s.dev.ch) ∧
    (q.crc = crc16 (requestBody 0x12 q) → q.payload = [] →
      (sv.session = none → RunsTo (.updateClose o q) s (said d 0x12 0x13 [])) ∧
      (∀ x, sv.session = some x →
        (¬ mine x → RunsTo (.updateClose o q) s (busy x 0x12)) ∧
        (mine x → x.written ≠ x.length → Runs (.updateClose o q) s fun t =>
          t.svc.session = none ∧ t.flash = s.dev.flash ∧ t.sram = s.dev.sram ∧ t.ch = s.dev.ch))) ∧
    (∀ x, sv.session = some x →
      (reached s.dev.tim.raw x.due = false → RunsTo .updateSessionTimeout s s.dev) ∧
      (reached s.dev.tim.raw x.due = true → Runs .updateSessionTimeout s fun t =>
        t.svc = { sv with session := none } ∧ t.flash = s.dev.flash ∧ t.sram = s.dev.sram ∧ t.ch = s.dev.ch))

/-- A close of a complete slot ends its session; where the checks pass the slot has its closed mark, else the flash is
as it was. COMMIT out of a trial answers 0x17; in one it sets the committed mark of the running slot and ends the trial.
SLOT_SELECT with a session open answers BUSY; TRIAL of a slot that can be armed programs its seconds, 60 for 0, CANCEL
of an armed one its failed mark, RESTART asked of an unpaired module makes the restart due 10 ms after its response:
counted at once at the service port or without a route, else from the response's departure; one already due stands (log
161). What cannot be answers 0x18, bad seconds FORMAT (2), which comes first (inferred, log 42). Under these conditions
on state and operands alone exec answers the next state described, for .updateClose, .commit, .slotSelectTrial,
.slotSelectCancel, .slotSelectRestart. -/
def Obligations.SlotsCloseCommitAndSelect : Prop :=
  ∀ (s : State) (o : Sys2Proof.NspFrom) (q : Sys2Proof.NspReq), Up s → NspFree s.dev o → q.addr = 0x800000000000#48 →
    let sv := s.dev.svc
    let d := takenUp s.dev o []
    let said := fun (code : Sys2Proof.Byte) (st : Nat) (p : List Sys2Proof.Byte) =>
      nspReply d o (echoSeq s.dev o) (responseFrame code q.seq st p)
    let b := otherSlot s.dev
    let flags := leAt q.payload 1 1
    let secs := leAt q.payload 2 2
    let rest := fun (t : Device) => t.sram = s.dev.sram ∧ t.ch = s.dev.ch ∧ t.tim = s.dev.tim ∧ t.eng = s.dev.eng
    (∀ x, q.crc = crc16 (requestBody 0x12 q) → q.payload = [] → sv.session = some x → x.owner = ownerOf o →
      x.written = x.length → Runs (.updateClose o q) s fun t =>
        let passes := slotChecks d b x.length = true ∧
          (validate d (slotImage d b) (slotImage d b).length false true).1 = none
        t.svc.session = none ∧ rest t ∧ (¬ passes → t.flash = s.dev.flash) ∧
        (passes → s.dev.flash.broken = false → slotMark t b 32 = true ∧ (sv.recovery = true → slotMark t b 48 = true))) ∧
    (q.crc = crc16 (requestBody 0x13 q) → q.payload = [] → sv.recovery = false →
      (sv.trial = false → RunsTo (.commit o q) s (said 0x13 0x17 [])) ∧
      (sv.trial = true → s.dev.flash.broken = false → Runs (.commit o q) s fun t =>
        t.svc.trial = false ∧ t.svc.trialEnd = none ∧ slotMark t sv.slot 48 = true ∧ rest t)) ∧
    (q.crc = crc16 (requestBody 0x14 q) → q.payload.length = 4 → sv.recovery = false →
      let action := leAt q.payload 0 1
      (∀ x, sv.session = some x → (action = 1 → RunsTo (.slotSelectTrial o q) s (said 0x14 3 (leBytes 2 x.owner.toNat))) ∧
        (action = 2 → RunsTo (.slotSelectCancel o q) s (said 0x14 3 (leBytes 2 x.owner.toNat))) ∧
        (action = 3 → RunsTo (.slotSelectRestart o q) s (said 0x14 3 (leBytes 2 x.owner.toNat)))) ∧
      (sv.session = none → action = 1 → secs ≠ 0 → (secs < 10 ∨ 3600 < secs) →
        RunsTo (.slotSelectTrial o q) s (said 0x14 2 [])) ∧
      (sv.session = none → action = 1 → (secs = 0 ∨ (10 ≤ secs ∧ secs ≤ 3600)) → armable s.dev b = false →
        RunsTo (.slotSelectTrial o q) s (said 0x14 0x18 [])) ∧
      (sv.session = none → action = 1 → (secs = 0 ∨ (10 ≤ secs ∧ secs ≤ 3600)) → armable s.dev b = true → s.dev.flash.broken = false →
        flags % 2 = 0 → Runs (.slotSelectTrial o q) s fun t =>
          slotField t b 40 = BitVec.ofNat 32 (0xFFFF0000 + if secs = 0 then 60 else secs) ∧ t.svc.restartDue = sv.restartDue ∧ rest t) ∧
      (sv.session = none → action = 2 → armedNow s.dev b = false → RunsTo (.slotSelectCancel o q) s (said 0x14 0x18 [])) ∧
      (sv.session = none → action = 2 → armedNow s.dev b = true → s.dev.flash.broken = false → flags % 2 = 0 →
        Runs (.slotSelectCancel o q) s fun t => slotMark t b 52 = true ∧ rest t) ∧
      (sv.session = none → action = 3 → flags % 2 = 0 → RunsTo (.slotSelectRestart o q) s (said 0x14 0 [])) ∧
      (sv.session = none → action = 3 → flags % 2 = 1 → s.dev.pair.role = .unpaired → Runs (.slotSelectRestart o q) s fun t =>
        t.flash = s.dev.flash ∧ rest t ∧ (sv.restartDue ≠ .none → t.svc.restartDue = sv.restartDue) ∧
        (sv.restartDue = .none → (o = .port ∨ ∃ n, o = .station n ∧ routeTo s.dev n = none) →
          t.svc.restartDue = .due (s.dev.tim.raw + 1600000)) ∧
        (∀ n x, sv.restartDue = .none → o = .station n → routeTo s.dev n = some x → t.svc.restartDue = .afterResponse n)))

/-- A restart, the watchdog, RST_N, a drop of a lattice rail, the restart delay and the trial timer at its end reset the
device: the lattice is down, the cause's bit is added to the reset cause, every lattice register has its reset value,
the sentinels, the SRAM, the flash, the line states and the balls' levels stay. Before its time neither timer does
anything. That the SRAM and the balls' levels stay at every device reset, a drop of a lattice rail included, is inferred
(log 37). Under these conditions on state and operands alone exec answers the next state described, for
.trialTimerExpiry, .restartDelayExpiry, .latticePorAssert, .rstNAssert, .restart, .watchdogExpiry. -/
def Obligations.DeviceResets : Prop :=
  ∀ s : State,
    let was := fun (cause : Nat) (t : Device) =>
      t.glb.latUp = false ∧ t.glb.rstCause = setBit s.dev.glb.rstCause cause ∧ t.glb.vaonUp = s.dev.glb.vaonUp ∧
      t.sent = s.dev.sent ∧ t.sram = s.dev.sram ∧ t.flash = s.dev.flash ∧
      (∀ n : ChanNo, (chan t n).fe = {} ∧ (chan t n).lq = {} ∧ (chan t n).jn = {} ∧ (chan t n).slp = {} ∧
        (chan t n).line.state = (chan s.dev n).line.state ∧ (chan t n).line.token = (chan s.dev n).line.token ∧
        (chan t n).line.termEn = (chan s.dev n).line.termEn ∧ (chan t n).line.req = .off) ∧
      t.glb = { ({} : Glob) with
        revision := s.dev.glb.revision, stby := s.dev.glb.stby, stbyAborted := s.dev.glb.stbyAborted
        rstCause := setBit s.dev.glb.rstCause cause, vaonUp := s.dev.glb.vaonUp, wakeNLow := s.dev.glb.wakeNLow
        vioBLow := s.dev.glb.vioBLow, free := s.dev.glb.free } ∧ t.tag = ({} : Device).tag ∧
      t.ring = { ({} : Ring) with east := t.ring.east, west := t.ring.west, mirror := t.ring.mirror } ∧
      (∀ p : Sys2Proof.Port, port t p = { ({} : LanePort) with
        rxLos := (port s.dev p).rxLos, txFault := (port s.dev p).txFault, modAbs := (port s.dev p).modAbs }) ∧
      t.tim = {} ∧ t.locks = [] ∧ t.con = {} ∧ t.pair = {} ∧ t.img = {} ∧ t.svc = {} ∧ t.lat = {} ∧
      t.eng = Vector.replicate 8 {} ∧ t.pin = Vector.replicate 128 {} ∧
      (∀ p : Sys2Proof.Port, (port t p).st = .down ∧ (port t p).modAbs = (port s.dev p).modAbs ∧
        (port t p).rxLos = (port s.dev p).rxLos)
    (Up s → Runs .restart s (was 3) ∧ Runs .watchdogExpiry s (was 5)) ∧
    Runs .latticePorAssert s (was 1) ∧
    (Vaon s → Runs .rstNAssert s (was 2)) ∧
    (∀ e, Up s → s.dev.svc.restartDue = .due e → reached s.dev.tim.raw e = true → Runs .restartDelayExpiry s (was 3)) ∧
    (Up s → (∀ e, s.dev.svc.restartDue = .due e → reached s.dev.tim.raw e = false) → RunsTo .restartDelayExpiry s s.dev) ∧
    (∀ e, Up s → s.dev.svc.trialEnd = some e → reached s.dev.tim.raw e = true → Runs .trialTimerExpiry s (was 4)) ∧
    (∀ e, Up s → s.dev.svc.trialEnd = some e → reached s.dev.tim.raw e = false → RunsTo .trialTimerExpiry s s.dev)

/-- On release the lattice is up, its flash read, with every token cleared; with RECOVER_N low, an unusable flash, or no
slot that can run the module is in recovery mode with nothing loaded. A committed usable slot, none armed, runs with the
flash as it was; an armed one starts its trial, its mark programmed; a usable one whose trial was not committed fails
and the other runs. With a slot chosen the T edges of idle steps take CODE, LEDGER and IMAGE in turn (one each: the
model's choice, log 140): the tag area from the ledger, then the full load, line_req and tokens held over, every
district epoch 0, autostart engines in RUN, ring_en from RING_PLAN; a refused image fails the slot and resets. Service
is due with time acquired, or as the time master, in phase 5, 600 ms after the release, or with the ring off: every
channel has its structure's request, those without one OFF, in service, phase 6, time_ok as time stands; not due, or
with nothing loaded or already in service, nothing changes. Under these conditions on state and operands alone exec
answers the next state described, for .latticeResetRelease, .startService. -/
def Obligations.StartUpAndService : Prop :=
  ∀ s : State,
    (∀ (low : Bool) (tick : Nat), Vaon s → s.dev.glb.latUp = false →
      (low = true ∨ s.dev.flash.sfdp = false ∨ s.dev.flash.density.toNat < 32) → Runs (.latticeResetRelease low tick) s fun t =>
        t.glb.latUp = true ∧ t.lat.sysLock = true ∧ t.svc.recovery = true ∧ t.svc.slotsRead = true ∧
        t.svc.density = s.dev.flash.density ∧ t.glb.loaded = s.dev.glb.loaded ∧
        (∀ n : ChanNo, (chan t n).line.token = false) ∧ t.sram = s.dev.sram ∧ t.flash = s.dev.flash ∧ t.sent = s.dev.sent) ∧
    (∀ (low : Bool) (tick : Nat), Up s → RunsTo (.latticeResetRelease low tick) s s.dev) ∧
    (∀ tick : Nat, Vaon s → s.dev.glb.latUp = false → s.dev.flash.sfdp = true → 32 ≤ s.dev.flash.density.toNat →
      (slotUsable s.dev false = false → slotUsable s.dev true = false → Runs (.latticeResetRelease false tick) s fun t =>
        t.glb.latUp = true ∧ t.svc.recovery = true ∧ t.glb.loaded = s.dev.glb.loaded ∧ t.sram = s.dev.sram ∧
        t.flash = s.dev.flash) ∧
      (∀ b : Bool, slotUsable s.dev b = true →
        let begun := fun (b : Bool) (t : Device) => t.glb.latUp = true ∧ t.lat.sysLock = true ∧ t.svc.recovery = s.dev.svc.recovery ∧
          t.svc.slot = b ∧ t.svc.slotsRead = true ∧ t.glb.phase = 1 ∧ t.glb.boot = some ⟨b, tick⟩ ∧ t.glb.loaded = s.dev.glb.loaded ∧
          (∀ n : ChanNo, (chan t n).line.token = false) ∧ (∀ p : Sys2Proof.Port, (port t p).txDisable = false) ∧ t.sram = s.dev.sram
        (slotUsable s.dev (!b) = false → slotMark s.dev b 48 = true → trialArmed s.dev b = false →
          Runs (.latticeResetRelease false tick) s fun t => begun b t ∧ t.svc.trial = s.dev.svc.trial ∧ t.flash = s.dev.flash) ∧
        (slotUsable s.dev (!b) = false → slotMark s.dev b 44 = false → trialArmed s.dev b = true → s.dev.flash.broken = false →
          Runs (.latticeResetRelease false tick) s fun t => begun b t ∧ t.svc.trial = true ∧ slotMark t b 44 = true ∧
            t.svc.trialEnd = some (s.dev.tim.raw + BitVec.ofNat 64 (fld (slotField s.dev b 40) 0 16 * 160000000))) ∧
        (slotMark s.dev b 44 = true → slotMark s.dev b 48 = false → s.dev.flash.broken = false →
          (slotMark s.dev (!b) 32 = false → Runs (.latticeResetRelease false tick) s fun t =>
            t.glb.latUp = true ∧ t.svc.recovery = true ∧ slotMark t b 52 = true ∧ t.svc.failEvent = some (b, 1) ∧ t.sram = s.dev.sram) ∧
          (slotUsable (failSlot s.dev b 1) (!b) = true → slotMark s.dev (!b) 48 = true → trialArmed s.dev (!b) = false →
            Runs (.latticeResetRelease false tick) s fun t => begun (!b) t ∧ slotMark t b 52 = true ∧
              t.svc.failEvent = some (b, 1))))) ∧
    (∀ x : Boot, Up s → s.pending = [] → s.dev.glb.boot = some x →
      let e := tEdge s.dev
      let v := validate e (slotImage e x.slot) (slotImage e x.slot).length false true
      (s.dev.glb.phase = 1 → step s = .next { s with dev := { e with glb := { e.glb with phase := 2 } } }) ∧
      (∀ y, s.dev.glb.phase = 2 → ledgerStep e (imageSections (slotImage e x.slot)) = some y →
        let z := { y with glb := { y.glb with phase := 3 } }
        (stationValid y = true → step s = .next { s with dev := { z with ring := { z.ring with
          station := BitVec.ofNat 10 (fld (tagWord y 0) 0 16), numbered := true } } }) ∧
        (stationValid y = false → step s = .next { s with dev := { z with glb := { z.glb with noStation := true } } })) ∧
      (s.dev.glb.phase = 3 → s.dev.svc.trial = false → v.1 = none → Ticks s fun t =>
        t.glb.boot = none ∧ t.glb.loaded = true ∧ t.glb.inService = s.dev.glb.inService ∧
        t.ring.en = decide (b1 (bodyOf v.2 9 0) 0 % 2 = 1) ∧ t.glb.phase = (if t.ring.en then 4 else 3) ∧
        t.img.id = BitVec.ofNat 32 (b4 (slotImage e x.slot) 20) ∧ t.img.epochs = Vector.replicate 14 0 ∧
        (∀ n : ChanNo, Placed v.2 n t ∧ (chan t n).line.token = (chan s.dev n).line.token ∧
          (chan t n).line.req = (chan s.dev n).line.req ∧ (chan t n).line.state = (chan s.dev n).line.state) ∧
        (∀ k : EngNo, s.dev.eng[k].st = .stopped → t.eng[k].st = if t.img.autostart.getLsbD k.val then .run else .stopped) ∧
        t.flash = s.dev.flash) ∧
      (s.dev.glb.phase = 3 → v.1 ≠ none → s.dev.flash.broken = false → Ticks s fun t => t.glb.latUp = false ∧
        t.glb.rstCause = setBit s.dev.glb.rstCause 3 ∧ slotMark t x.slot 52 = true ∧
        t.svc.failEvent = some (x.slot, 3) ∧ t.sram = s.dev.sram)) ∧
    (Up s →
      let time := s.dev.glb.acquired = true ∨
        (s.dev.tim.master = true ∧ s.dev.ring.numbered = true ∧ s.dev.tim.masterSt = s.dev.ring.station)
      let due := s.dev.ring.en = false ∨ (time ∧ s.dev.glb.phase = 5) ∨ 600 * msTicks ≤ s.dev.tim.raw.toNat
      let open_ := s.dev.glb.loaded = true ∧ s.dev.glb.inService = false
      (open_ → due → Runs .startService s fun t =>
        t.glb.inService = true ∧ t.glb.phase = 6 ∧ (t.glb.timeOk = true ↔ time) ∧
        t.glb.serviceMs = BitVec.ofNat 10 (min 0x3FF (s.dev.tim.raw.toNat / msTicks)) ∧
        (∀ n : ChanNo, s.dev.img.lineSet[n] = .off → (Vaon s → (chan t n).line.state = .off) ∧ (chan t n).line.req = .off) ∧
        (∀ n : ChanNo, s.dev.pair.role = .unpaired → Vaon s → (chan t n).line.token = mayDrive (chan s.dev n).fe.role) ∧
        t.sram = s.dev.sram ∧ t.flash = s.dev.flash ∧ t.tim = s.dev.tim) ∧
      (¬ (open_ ∧ due) → RunsTo .startService s s.dev))

/-- A standby request with a tag change pending begins its ledger write and waits; with nothing pending it is in force.
A cancel ends both. A ledger write takes the tag area as it stands, with the sequence after that of the copy in use, and
erases its copy; one already running leaves the change pending. At its end on a healthy flash, with no further change,
the copy stands readable with the snapshot and that sequence, in TAG_LEDGER_SEQ too; on a failing one the change stays
pending. Under these conditions on state and operands alone exec answers the next state described, for .tagPersist,
.tagPersistTimer, .ledgerWriteDone, .standbyRequest, .standbyCancel. -/
def Obligations.StandbyAndLedger : Prop :=
  ∀ s : State, Up s →
    let sv := s.dev.svc
    let g := s.dev.glb
    let others := fun (t : Device) => t.sram = s.dev.sram ∧ t.tim = s.dev.tim ∧ t.ring = s.dev.ring ∧ t.eng = s.dev.eng
    let begun := fun (t : Device) => t.svc = { sv with
        ledBusy := some s.dev.tag, ledTo := ledgerTarget s.dev, ledNext := nextLedgerSeq s.dev } ∧ t.glb.tagPending = false ∧
      ledgerAt t (ledgerTarget s.dev) = {} ∧ (∀ c, ledgerChoice s.dev = some c → t.svc.ledNext = (ledgerAt s.dev c).seq + 1) ∧
      ledgerAt t (!ledgerTarget s.dev) = ledgerAt s.dev (!ledgerTarget s.dev) ∧ t.flash.bytes = s.dev.flash.bytes ∧
      t.tag = s.dev.tag ∧ t.ch = s.dev.ch ∧ others t
    (sv.ledBusy = none → Runs .tagPersist s begun) ∧
    (∀ x, sv.ledBusy = some x → RunsTo .tagPersist s { s.dev with glb := { g with tagPending := true } } ∧
      RunsTo .tagPersistTimer s s.dev) ∧
    (sv.ledBusy = none → g.tagPending = true → Runs .tagPersistTimer s begun) ∧
    (g.tagPending = false → RunsTo .tagPersistTimer s s.dev) ∧
    (sv.ledBusy = none → RunsTo .ledgerWriteDone s s.dev) ∧
    (∀ x, sv.ledBusy = some x → s.dev.flash.broken = true → RunsTo .ledgerWriteDone s { s.dev with
      svc := { sv with ledBusy := none, flashErr := true }, glb := { g with tagPending := true } }) ∧
    (∀ x, sv.ledBusy = some x → s.dev.flash.broken = false → g.tagPending = false → g.stbyWait = false →
      Runs .ledgerWriteDone s fun t =>
        t.svc.ledBusy = none ∧ t.svc.ledSeq = sv.ledNext ∧ t.svc.ledCopy = sv.ledTo ∧
        (ledgerAt t sv.ledTo).tag = some x ∧ ledgerReadable (ledgerAt t sv.ledTo) = true ∧ (ledgerAt t sv.ledTo).seq = sv.ledNext ∧
        (sv.trial = false → (ledgerAt t sv.ledTo).confirmed = true ∧ (ledgerAt t (!sv.ledTo)).retired = true) ∧
        tagWord t 10 = sv.ledNext ∧ t.glb.persisted = true ∧ t.ch = s.dev.ch ∧ others t) ∧
    (sv.ledBusy = none → g.tagPending = true → Runs .standbyRequest s fun t =>
      t.glb.stbyWait = true ∧ t.glb.stby = g.stby ∧ t.svc.ledBusy = some s.dev.tag ∧ t.ch = s.dev.ch ∧ others t) ∧
    (sv.ledBusy = none → g.tagPending = false → Runs .standbyRequest s fun t =>
      t.glb.stby = true ∧ t.glb.stbyWait = false ∧ t.flash = s.dev.flash ∧ t.tim = s.dev.tim) ∧
    RunsTo .standbyCancel s { s.dev with glb := { g with stby := false, stbyWait := false } }

/-- A write of another width or a misaligned access sets bad_access with its source alone, a read then answers 0.
Another access waits behind the earlier ones of its requester, and for the banks it takes (the requester is the model's
choice, log 133). Served, an unmapped one sets unmapped for the service port and the housekeeper, nothing for the ring.
A legal register write completes with its register's effect: a tag word is written, GLB_ERR clears where 1 is written, a
read-only register ignores it, a 0 timeout sets bad_code, a program word is taken while the engine is stopped, or its
district held and drained (inferred, log 53), else prog_busy is set, a timing register outside its hold refuses it; in
the MEM window it stores the word, a read there answers the stored word; the registers of commands run them. The low
half of a staged 64-bit register is held, its high half commits both; a read of a low half answers it and latches the
high half. MEM_WRITE takes the word's bank and waits while it is not its requester's (the requester is the model's
choice, log 133). After it the four bytes at its word hold the value, lowest byte first, its check bits agree, and every
other byte, every END mark and the rest of the device but the concourse are as before. That the END mark stays is the
model's choice, log entry 29. Under these conditions on state and operands alone exec answers the next state described,
for .registerWrite, .lowHalfRead, .lowHalfWrite, .highHalfWrite, .memWrite. -/
def Obligations.RegisterAndMemoryAccesses : Prop :=
  (∀ (s : State) (src : Sys2Proof.Src) (a : Offs) (v : Word), Up s →
    let d := s.dev
    let u := noWait d (srcReq src) .access
    let su : State := { s with dev := u }
    let write := Served d (.write src a.toNat v)
    let read := Served d (.read src a.toNat)
    (∀ bytes : Nat, (bytes ≠ 4 ∨ a.toNat % 4 ≠ 0) → RunsTo (.registerWrite src a bytes v) s (glbErr d 0 src a.toNat) ∧
      RunsTo (.lowHalfRead src a bytes) s (answerWord (glbErr d 0 src a.toNat) 0)) ∧
    (a.toNat % 4 ≠ 0 → RunsTo (.lowHalfWrite src a v) s (glbErr d 0 src a.toNat) ∧ RunsTo (.highHalfWrite src a v) s (glbErr d 0 src a.toNat)) ∧
    (a.toNat % 4 = 0 → ¬ write → Runs (.registerWrite src a 4 v) s (Waits d (.write src a.toNat v)) ∧
      Runs (.lowHalfWrite src a v) s (Waits d (.write src a.toNat v)) ∧ Runs (.highHalfWrite src a v) s (Waits d (.write src a.toNat v))) ∧
    (a.toNat % 4 = 0 → ¬ read → Runs (.lowHalfRead src a 4) s (Waits d (.read src a.toNat))) ∧
    (a.toNat % 4 = 0 → mapped d a.toNat = false → accessBehind d (.read src a.toNat) = false →
      (∀ st, src = .ring st → RunsTo (.registerWrite src a 4 v) s u ∧ RunsTo (.lowHalfWrite src a v) s u ∧
        RunsTo (.highHalfWrite src a v) s u ∧ RunsTo (.lowHalfRead src a 4) s (answerWord u 0)) ∧
      ((src = .service ∨ src = .housekeeper) → RunsTo (.registerWrite src a 4 v) s (glbErr u 3 src a.toNat) ∧
        RunsTo (.lowHalfWrite src a v) s (glbErr u 3 src a.toNat) ∧ RunsTo (.highHalfWrite src a v) s (glbErr u 3 src a.toNat) ∧
        RunsTo (.lowHalfRead src a 4) s (answerWord (glbErr u 3 src a.toNat) 0))) ∧
    (d.svc.recovery = false → write →
      (∀ x : BitVec 22, a.toNat = 0x10000000 + 4 * x.toNat → Runs (.registerWrite src a 4 v) s fun t =>
        sramWord t (4 * x.toNat) = v ∧ (∀ y, (∀ b, b < 4 → y ≠ 4 * x.toNat + b) → sramByte t y = sramByte d y) ∧
        OnlyBanks d { t with sram := d.sram }) ∧
      (∀ i : Fin 8, a.toNat = 8 + 4 * i.val → RunsTo (.registerWrite src a 4 v) s { u with
        tag := tabSet (0 : Word) d.tag (2 + i.val) v, glb := { d.glb with tagPending := true } }) ∧
      (a.toNat = 0x10004 → RunsTo (.registerWrite src a 4 v) s { u with glb := { d.glb with err := d.glb.err &&& ~~~ v.setWidth 4 } }) ∧
      (a.toNat = 0x10000 → RunsTo (.registerWrite src a 4 v) s u) ∧
      (a.toNat = 0x500008 → RunsTo (.registerWrite src a 4 v) s
        (if v.toNat % 256 = 0 then glbErr u 1 src 0x500008 else { u with ring := { d.ring with tmo := v.setWidth 8 } })) ∧
      (∀ (k : EngNo) (i : Fin 1024), a.toNat = 0x801000 + 0x10000 * k.val + 4 * i.val →
        RunsTo (.registerWrite src a 4 v) s (onEng u k (fun e =>
          if e.st = .stopped ∨ (d.img.held = some (k.val / 2 + 9) ∧ d.img.drained = true) then { e with prog := tabSet (0 : Word) e.prog i.val v } else { e with progBusy := true }))) ∧
      (∀ n : ChanNo, a.toNat = chanOff n 0x08 → d.img.held ≠ some (n.val / 8 + 1) → RunsTo (.registerWrite src a 4 v) s
        (onFe u n (fun f => { f with err := setBit f.err 1, errOffs := 0x08 }))) ∧
      (a.toNat = 0x10028 → v = 1 → exec (.registerWrite src a 4 v) s = exec .restart su) ∧
      (a.toNat = 0x600000 → exec (.registerWrite src a 4 v) s = exec (.conFreezeWrite (v.setWidth 20)) su) ∧
      (a.toNat = 0x400008 → exec (.registerWrite src a 4 v) s = exec (.timeMasterWrite (v.setWidth 10)) su) ∧
      (∀ (n : ChanNo) (i : LqIdx), a.toNat = chanOff n 0x204 → v = BitVec.ofNat 32 (256 + i.val) →
        RunsTo (.registerWrite src a 4 v) s (hostCommit (useAll d (srcReq src) .access (freeEntryNeeds d n i)) n i)) ∧
      (∀ (n : ChanNo), a.toNat = chanOff n 0x18 → v = 1 → exec (.registerWrite src a 4 v) s = exec (.recoveryStart n) su) ∧
      ((a.toNat = 0x400040 ∨ a.toNat = 0x400048 ∨ a.toNat = 0x600018 ∨ a.toNat = 0x700010) → RunsTo (.lowHalfWrite src a v) s
        { u with glb := { d.glb with loStage := tabSet (0 : Word) d.glb.loStage a.toNat v } }) ∧
      (a.toNat = 0x400044 → exec (.highHalfWrite src a v) s = exec (.offsetIncCommit src v) su) ∧
      (a.toNat = 0x40004C → exec (.highHalfWrite src a v) s = exec (.rateIncCommit src v) su) ∧
      (a.toNat = 0x40006C → exec (.highHalfWrite src a v) s = exec (.conversionStart v) su) ∧
      (a.toNat = 0x700014 → RunsTo (.highHalfWrite src a v) s { u with pair := { d.pair with
        chCastleEn := v ++ tabGet (0 : Word) d.glb.loStage 0x700010 } })) ∧
    (d.svc.recovery = false → read →
      (∀ x : BitVec 22, a.toNat = 0x10000000 + 4 * x.toNat → Runs (.lowHalfRead src a 4) s fun t =>
        t.glb.rdata = (delivered d (4 * x.toNat)).word ∧ t.sram = d.sram ∧ t.ch = d.ch) ∧
      (∀ x, a.toNat % 4 = 0 → mapped d a.toNat = true → specialRead d a.toNat = none → a.toNat ≠ 0x400074 →
        wideReg d a.toNat = some x → RunsTo (.lowHalfRead src a 4) s { u with glb := { d.glb with
          rdata := x.extractLsb' 0 32, hiLatch := tabSet (0 : Word) d.glb.hiLatch a.toNat (x.extractLsb' 32 32) } }))) ∧
  (∀ (s : State) (addr : BitVec 22) (w : Word), Up s →
    let x : Access := .mem (4 * addr.toNat) w
    (¬ Served s.dev x → Runs (.memWrite addr w) s (Waits s.dev x)) ∧
    (Served s.dev x → Runs (.memWrite addr w) s fun t =>
    sramWord t (4 * addr.toNat) = w ∧
    (∀ b, b < 4 → sramByte t (4 * addr.toNat + b) = w.extractLsb' (8 * b) 8) ∧
    (∀ a, (∀ b, b < 4 → a ≠ 4 * addr.toNat + b) → sramByte t a = sramByte s.dev a) ∧
    flipsAt t (4 * addr.toNat) = 0 ∧
    (∀ a, tabGet false t.sram.ends a = tabGet false s.dev.sram.ends a) ∧
    OnlyBanks s.dev { t with sram := s.dev.sram }))

/-- With the lattice down, every command but the lattice and always-on power commands, the sentinels' and the
transceivers' own, a VIO_B edge and RST_N leaves the device as it is. That such a command finds nothing to act on is the
model's choice, log entry 2. -/
def Obligations.LatticeInResetIsStill : Prop :=
  ∀ (c : Sys2Proof.Instr) (s : State), s.dev.glb.latUp = false → ofTheLattice c = true → (∃ t, exec c s = .next t) →
    exec c s = .next s
end

