-- ==== Sys2Proof/Laws/State.lean ====
section
/-! SUPPORT. What each update of a part of the device leaves as it was, and what it reads as afterwards: one lemma for each
field and each update, so that no later proof unfolds a record update. -/

namespace Sys2Proof.Machine

/-! ### A channel -/

@[simp] theorem onChan_tag (d : Device) (n : ChanNo) (f : Channel → Channel) : (onChan d n f).tag = d.tag := rfl
@[simp] theorem onChan_glb (d : Device) (n : ChanNo) (f : Channel → Channel) : (onChan d n f).glb = d.glb := rfl
@[simp] theorem onChan_lat (d : Device) (n : ChanNo) (f : Channel → Channel) : (onChan d n f).lat = d.lat := rfl
@[simp] theorem onChan_sent (d : Device) (n : ChanNo) (f : Channel → Channel) : (onChan d n f).sent = d.sent := rfl
@[simp] theorem onChan_sram (d : Device) (n : ChanNo) (f : Channel → Channel) : (onChan d n f).sram = d.sram := rfl
@[simp] theorem onChan_tim (d : Device) (n : ChanNo) (f : Channel → Channel) : (onChan d n f).tim = d.tim := rfl
@[simp] theorem onChan_ring (d : Device) (n : ChanNo) (f : Channel → Channel) : (onChan d n f).ring = d.ring := rfl
@[simp] theorem onChan_locks (d : Device) (n : ChanNo) (f : Channel → Channel) : (onChan d n f).locks = d.locks := rfl
@[simp] theorem onChan_con (d : Device) (n : ChanNo) (f : Channel → Channel) : (onChan d n f).con = d.con := rfl
@[simp] theorem onChan_pair (d : Device) (n : ChanNo) (f : Channel → Channel) : (onChan d n f).pair = d.pair := rfl
@[simp] theorem onChan_eng (d : Device) (n : ChanNo) (f : Channel → Channel) : (onChan d n f).eng = d.eng := rfl
@[simp] theorem onChan_pin (d : Device) (n : ChanNo) (f : Channel → Channel) : (onChan d n f).pin = d.pin := rfl
@[simp] theorem onChan_img (d : Device) (n : ChanNo) (f : Channel → Channel) : (onChan d n f).img = d.img := rfl
@[simp] theorem onChan_svc (d : Device) (n : ChanNo) (f : Channel → Channel) : (onChan d n f).svc = d.svc := rfl
@[simp] theorem onChan_flash (d : Device) (n : ChanNo) (f : Channel → Channel) : (onChan d n f).flash = d.flash := rfl

@[simp] theorem onFe_tag (d : Device) (n : ChanNo) (f : FrameEngine → FrameEngine) : (onFe d n f).tag = d.tag := rfl
@[simp] theorem onFe_glb (d : Device) (n : ChanNo) (f : FrameEngine → FrameEngine) : (onFe d n f).glb = d.glb := rfl
@[simp] theorem onFe_lat (d : Device) (n : ChanNo) (f : FrameEngine → FrameEngine) : (onFe d n f).lat = d.lat := rfl
@[simp] theorem onFe_sent (d : Device) (n : ChanNo) (f : FrameEngine → FrameEngine) : (onFe d n f).sent = d.sent := rfl
@[simp] theorem onFe_sram (d : Device) (n : ChanNo) (f : FrameEngine → FrameEngine) : (onFe d n f).sram = d.sram := rfl
@[simp] theorem onFe_tim (d : Device) (n : ChanNo) (f : FrameEngine → FrameEngine) : (onFe d n f).tim = d.tim := rfl
@[simp] theorem onFe_ring (d : Device) (n : ChanNo) (f : FrameEngine → FrameEngine) : (onFe d n f).ring = d.ring := rfl
@[simp] theorem onFe_locks (d : Device) (n : ChanNo) (f : FrameEngine → FrameEngine) : (onFe d n f).locks = d.locks := rfl
@[simp] theorem onFe_con (d : Device) (n : ChanNo) (f : FrameEngine → FrameEngine) : (onFe d n f).con = d.con := rfl
@[simp] theorem onFe_pair (d : Device) (n : ChanNo) (f : FrameEngine → FrameEngine) : (onFe d n f).pair = d.pair := rfl
@[simp] theorem onFe_eng (d : Device) (n : ChanNo) (f : FrameEngine → FrameEngine) : (onFe d n f).eng = d.eng := rfl
@[simp] theorem onFe_pin (d : Device) (n : ChanNo) (f : FrameEngine → FrameEngine) : (onFe d n f).pin = d.pin := rfl
@[simp] theorem onFe_img (d : Device) (n : ChanNo) (f : FrameEngine → FrameEngine) : (onFe d n f).img = d.img := rfl
@[simp] theorem onFe_svc (d : Device) (n : ChanNo) (f : FrameEngine → FrameEngine) : (onFe d n f).svc = d.svc := rfl
@[simp] theorem onFe_flash (d : Device) (n : ChanNo) (f : FrameEngine → FrameEngine) : (onFe d n f).flash = d.flash := rfl

@[simp] theorem onLq_tag (d : Device) (n : ChanNo) (f : LaunchQ → LaunchQ) : (onLq d n f).tag = d.tag := rfl
@[simp] theorem onLq_glb (d : Device) (n : ChanNo) (f : LaunchQ → LaunchQ) : (onLq d n f).glb = d.glb := rfl
@[simp] theorem onLq_lat (d : Device) (n : ChanNo) (f : LaunchQ → LaunchQ) : (onLq d n f).lat = d.lat := rfl
@[simp] theorem onLq_sent (d : Device) (n : ChanNo) (f : LaunchQ → LaunchQ) : (onLq d n f).sent = d.sent := rfl
@[simp] theorem onLq_sram (d : Device) (n : ChanNo) (f : LaunchQ → LaunchQ) : (onLq d n f).sram = d.sram := rfl
@[simp] theorem onLq_tim (d : Device) (n : ChanNo) (f : LaunchQ → LaunchQ) : (onLq d n f).tim = d.tim := rfl
@[simp] theorem onLq_ring (d : Device) (n : ChanNo) (f : LaunchQ → LaunchQ) : (onLq d n f).ring = d.ring := rfl
@[simp] theorem onLq_locks (d : Device) (n : ChanNo) (f : LaunchQ → LaunchQ) : (onLq d n f).locks = d.locks := rfl
@[simp] theorem onLq_con (d : Device) (n : ChanNo) (f : LaunchQ → LaunchQ) : (onLq d n f).con = d.con := rfl
@[simp] theorem onLq_pair (d : Device) (n : ChanNo) (f : LaunchQ → LaunchQ) : (onLq d n f).pair = d.pair := rfl
@[simp] theorem onLq_eng (d : Device) (n : ChanNo) (f : LaunchQ → LaunchQ) : (onLq d n f).eng = d.eng := rfl
@[simp] theorem onLq_pin (d : Device) (n : ChanNo) (f : LaunchQ → LaunchQ) : (onLq d n f).pin = d.pin := rfl
@[simp] theorem onLq_img (d : Device) (n : ChanNo) (f : LaunchQ → LaunchQ) : (onLq d n f).img = d.img := rfl
@[simp] theorem onLq_svc (d : Device) (n : ChanNo) (f : LaunchQ → LaunchQ) : (onLq d n f).svc = d.svc := rfl
@[simp] theorem onLq_flash (d : Device) (n : ChanNo) (f : LaunchQ → LaunchQ) : (onLq d n f).flash = d.flash := rfl

@[simp] theorem onJn_tag (d : Device) (n : ChanNo) (f : Journal → Journal) : (onJn d n f).tag = d.tag := rfl
@[simp] theorem onJn_glb (d : Device) (n : ChanNo) (f : Journal → Journal) : (onJn d n f).glb = d.glb := rfl
@[simp] theorem onJn_lat (d : Device) (n : ChanNo) (f : Journal → Journal) : (onJn d n f).lat = d.lat := rfl
@[simp] theorem onJn_sent (d : Device) (n : ChanNo) (f : Journal → Journal) : (onJn d n f).sent = d.sent := rfl
@[simp] theorem onJn_sram (d : Device) (n : ChanNo) (f : Journal → Journal) : (onJn d n f).sram = d.sram := rfl
@[simp] theorem onJn_tim (d : Device) (n : ChanNo) (f : Journal → Journal) : (onJn d n f).tim = d.tim := rfl
@[simp] theorem onJn_ring (d : Device) (n : ChanNo) (f : Journal → Journal) : (onJn d n f).ring = d.ring := rfl
@[simp] theorem onJn_locks (d : Device) (n : ChanNo) (f : Journal → Journal) : (onJn d n f).locks = d.locks := rfl
@[simp] theorem onJn_con (d : Device) (n : ChanNo) (f : Journal → Journal) : (onJn d n f).con = d.con := rfl
@[simp] theorem onJn_pair (d : Device) (n : ChanNo) (f : Journal → Journal) : (onJn d n f).pair = d.pair := rfl
@[simp] theorem onJn_eng (d : Device) (n : ChanNo) (f : Journal → Journal) : (onJn d n f).eng = d.eng := rfl
@[simp] theorem onJn_pin (d : Device) (n : ChanNo) (f : Journal → Journal) : (onJn d n f).pin = d.pin := rfl
@[simp] theorem onJn_img (d : Device) (n : ChanNo) (f : Journal → Journal) : (onJn d n f).img = d.img := rfl
@[simp] theorem onJn_svc (d : Device) (n : ChanNo) (f : Journal → Journal) : (onJn d n f).svc = d.svc := rfl
@[simp] theorem onJn_flash (d : Device) (n : ChanNo) (f : Journal → Journal) : (onJn d n f).flash = d.flash := rfl

@[simp] theorem onSlp_tag (d : Device) (n : ChanNo) (f : Sleep → Sleep) : (onSlp d n f).tag = d.tag := rfl
@[simp] theorem onSlp_glb (d : Device) (n : ChanNo) (f : Sleep → Sleep) : (onSlp d n f).glb = d.glb := rfl
@[simp] theorem onSlp_lat (d : Device) (n : ChanNo) (f : Sleep → Sleep) : (onSlp d n f).lat = d.lat := rfl
@[simp] theorem onSlp_sent (d : Device) (n : ChanNo) (f : Sleep → Sleep) : (onSlp d n f).sent = d.sent := rfl
@[simp] theorem onSlp_sram (d : Device) (n : ChanNo) (f : Sleep → Sleep) : (onSlp d n f).sram = d.sram := rfl
@[simp] theorem onSlp_tim (d : Device) (n : ChanNo) (f : Sleep → Sleep) : (onSlp d n f).tim = d.tim := rfl
@[simp] theorem onSlp_ring (d : Device) (n : ChanNo) (f : Sleep → Sleep) : (onSlp d n f).ring = d.ring := rfl
@[simp] theorem onSlp_locks (d : Device) (n : ChanNo) (f : Sleep → Sleep) : (onSlp d n f).locks = d.locks := rfl
@[simp] theorem onSlp_con (d : Device) (n : ChanNo) (f : Sleep → Sleep) : (onSlp d n f).con = d.con := rfl
@[simp] theorem onSlp_pair (d : Device) (n : ChanNo) (f : Sleep → Sleep) : (onSlp d n f).pair = d.pair := rfl
@[simp] theorem onSlp_eng (d : Device) (n : ChanNo) (f : Sleep → Sleep) : (onSlp d n f).eng = d.eng := rfl
@[simp] theorem onSlp_pin (d : Device) (n : ChanNo) (f : Sleep → Sleep) : (onSlp d n f).pin = d.pin := rfl
@[simp] theorem onSlp_img (d : Device) (n : ChanNo) (f : Sleep → Sleep) : (onSlp d n f).img = d.img := rfl
@[simp] theorem onSlp_svc (d : Device) (n : ChanNo) (f : Sleep → Sleep) : (onSlp d n f).svc = d.svc := rfl
@[simp] theorem onSlp_flash (d : Device) (n : ChanNo) (f : Sleep → Sleep) : (onSlp d n f).flash = d.flash := rfl

@[simp] theorem onWake_tag (d : Device) (n : ChanNo) (f : Wake → Wake) : (onWake d n f).tag = d.tag := rfl
@[simp] theorem onWake_glb (d : Device) (n : ChanNo) (f : Wake → Wake) : (onWake d n f).glb = d.glb := rfl
@[simp] theorem onWake_lat (d : Device) (n : ChanNo) (f : Wake → Wake) : (onWake d n f).lat = d.lat := rfl
@[simp] theorem onWake_sent (d : Device) (n : ChanNo) (f : Wake → Wake) : (onWake d n f).sent = d.sent := rfl
@[simp] theorem onWake_sram (d : Device) (n : ChanNo) (f : Wake → Wake) : (onWake d n f).sram = d.sram := rfl
@[simp] theorem onWake_tim (d : Device) (n : ChanNo) (f : Wake → Wake) : (onWake d n f).tim = d.tim := rfl
@[simp] theorem onWake_ring (d : Device) (n : ChanNo) (f : Wake → Wake) : (onWake d n f).ring = d.ring := rfl
@[simp] theorem onWake_locks (d : Device) (n : ChanNo) (f : Wake → Wake) : (onWake d n f).locks = d.locks := rfl
@[simp] theorem onWake_con (d : Device) (n : ChanNo) (f : Wake → Wake) : (onWake d n f).con = d.con := rfl
@[simp] theorem onWake_pair (d : Device) (n : ChanNo) (f : Wake → Wake) : (onWake d n f).pair = d.pair := rfl
@[simp] theorem onWake_eng (d : Device) (n : ChanNo) (f : Wake → Wake) : (onWake d n f).eng = d.eng := rfl
@[simp] theorem onWake_pin (d : Device) (n : ChanNo) (f : Wake → Wake) : (onWake d n f).pin = d.pin := rfl
@[simp] theorem onWake_img (d : Device) (n : ChanNo) (f : Wake → Wake) : (onWake d n f).img = d.img := rfl
@[simp] theorem onWake_svc (d : Device) (n : ChanNo) (f : Wake → Wake) : (onWake d n f).svc = d.svc := rfl
@[simp] theorem onWake_flash (d : Device) (n : ChanNo) (f : Wake → Wake) : (onWake d n f).flash = d.flash := rfl

@[simp] theorem onLine_tag (d : Device) (n : ChanNo) (f : Line → Line) : (onLine d n f).tag = d.tag := rfl
@[simp] theorem onLine_glb (d : Device) (n : ChanNo) (f : Line → Line) : (onLine d n f).glb = d.glb := rfl
@[simp] theorem onLine_lat (d : Device) (n : ChanNo) (f : Line → Line) : (onLine d n f).lat = d.lat := rfl
@[simp] theorem onLine_sent (d : Device) (n : ChanNo) (f : Line → Line) : (onLine d n f).sent = d.sent := rfl
@[simp] theorem onLine_sram (d : Device) (n : ChanNo) (f : Line → Line) : (onLine d n f).sram = d.sram := rfl
@[simp] theorem onLine_tim (d : Device) (n : ChanNo) (f : Line → Line) : (onLine d n f).tim = d.tim := rfl
@[simp] theorem onLine_ring (d : Device) (n : ChanNo) (f : Line → Line) : (onLine d n f).ring = d.ring := rfl
@[simp] theorem onLine_locks (d : Device) (n : ChanNo) (f : Line → Line) : (onLine d n f).locks = d.locks := rfl
@[simp] theorem onLine_con (d : Device) (n : ChanNo) (f : Line → Line) : (onLine d n f).con = d.con := rfl
@[simp] theorem onLine_pair (d : Device) (n : ChanNo) (f : Line → Line) : (onLine d n f).pair = d.pair := rfl
@[simp] theorem onLine_eng (d : Device) (n : ChanNo) (f : Line → Line) : (onLine d n f).eng = d.eng := rfl
@[simp] theorem onLine_pin (d : Device) (n : ChanNo) (f : Line → Line) : (onLine d n f).pin = d.pin := rfl
@[simp] theorem onLine_img (d : Device) (n : ChanNo) (f : Line → Line) : (onLine d n f).img = d.img := rfl
@[simp] theorem onLine_svc (d : Device) (n : ChanNo) (f : Line → Line) : (onLine d n f).svc = d.svc := rfl
@[simp] theorem onLine_flash (d : Device) (n : ChanNo) (f : Line → Line) : (onLine d n f).flash = d.flash := rfl

/-- The channel changed. -/
@[simp] theorem chan_onChan_same (d : Device) (n : ChanNo) (f : Channel → Channel) :
    chan (onChan d n f) n = f (chan d n) := by
  simp [chan, onChan]

/-- Every other channel. -/
theorem chan_onChan_other (d : Device) (n m : ChanNo) (f : Channel → Channel) (h : m ≠ n) :
    chan (onChan d n f) m = chan d m := by
  have h' : n.val ≠ m.val := fun e => h (Fin.ext e.symm)
  simp [chan, onChan, h']

/-- Any channel. -/
theorem chan_onChan (d : Device) (n m : ChanNo) (f : Channel → Channel) :
    chan (onChan d n f) m = if m = n then f (chan d n) else chan d m := by
  split
  · subst_vars; exact chan_onChan_same d _ f
  · exact chan_onChan_other d n m f ‹_›

/-- The fe part of the channel changed. -/
@[simp] theorem onFe_fe (d : Device) (n : ChanNo) (f : FrameEngine → FrameEngine) :
    (chan (onFe d n f) n).fe = f (chan d n).fe := by simp [onFe]

/-- The fe part of any channel. -/
theorem onFe_fe_any (d : Device) (n m : ChanNo) (f : FrameEngine → FrameEngine) :
    (chan (onFe d n f) m).fe = if m = n then f (chan d n).fe else (chan d m).fe := by
  unfold onFe; rw [chan_onChan]; split <;> rfl

@[simp] theorem onFe_lq (d : Device) (n m : ChanNo) (f : FrameEngine → FrameEngine) :
    (chan (onFe d n f) m).lq = (chan d m).lq := by unfold onFe; rw [chan_onChan]; split <;> simp_all
@[simp] theorem onFe_jn (d : Device) (n m : ChanNo) (f : FrameEngine → FrameEngine) :
    (chan (onFe d n f) m).jn = (chan d m).jn := by unfold onFe; rw [chan_onChan]; split <;> simp_all
@[simp] theorem onFe_slp (d : Device) (n m : ChanNo) (f : FrameEngine → FrameEngine) :
    (chan (onFe d n f) m).slp = (chan d m).slp := by unfold onFe; rw [chan_onChan]; split <;> simp_all
@[simp] theorem onFe_wake (d : Device) (n m : ChanNo) (f : FrameEngine → FrameEngine) :
    (chan (onFe d n f) m).wake = (chan d m).wake := by unfold onFe; rw [chan_onChan]; split <;> simp_all
@[simp] theorem onFe_line (d : Device) (n m : ChanNo) (f : FrameEngine → FrameEngine) :
    (chan (onFe d n f) m).line = (chan d m).line := by unfold onFe; rw [chan_onChan]; split <;> simp_all

/-- Every other channel. -/
theorem onFe_other (d : Device) (n m : ChanNo) (f : FrameEngine → FrameEngine) (h : m ≠ n) : chan (onFe d n f) m = chan d m :=
  chan_onChan_other d n m _ h

/-- The lq part of the channel changed. -/
@[simp] theorem onLq_lq (d : Device) (n : ChanNo) (f : LaunchQ → LaunchQ) :
    (chan (onLq d n f) n).lq = f (chan d n).lq := by simp [onLq]

/-- The lq part of any channel. -/
theorem onLq_lq_any (d : Device) (n m : ChanNo) (f : LaunchQ → LaunchQ) :
    (chan (onLq d n f) m).lq = if m = n then f (chan d n).lq else (chan d m).lq := by
  unfold onLq; rw [chan_onChan]; split <;> rfl

@[simp] theorem onLq_fe (d : Device) (n m : ChanNo) (f : LaunchQ → LaunchQ) :
    (chan (onLq d n f) m).fe = (chan d m).fe := by unfold onLq; rw [chan_onChan]; split <;> simp_all
@[simp] theorem onLq_jn (d : Device) (n m : ChanNo) (f : LaunchQ → LaunchQ) :
    (chan (onLq d n f) m).jn = (chan d m).jn := by unfold onLq; rw [chan_onChan]; split <;> simp_all
@[simp] theorem onLq_slp (d : Device) (n m : ChanNo) (f : LaunchQ → LaunchQ) :
    (chan (onLq d n f) m).slp = (chan d m).slp := by unfold onLq; rw [chan_onChan]; split <;> simp_all
@[simp] theorem onLq_wake (d : Device) (n m : ChanNo) (f : LaunchQ → LaunchQ) :
    (chan (onLq d n f) m).wake = (chan d m).wake := by unfold onLq; rw [chan_onChan]; split <;> simp_all
@[simp] theorem onLq_line (d : Device) (n m : ChanNo) (f : LaunchQ → LaunchQ) :
    (chan (onLq d n f) m).line = (chan d m).line := by unfold onLq; rw [chan_onChan]; split <;> simp_all

/-- Every other channel. -/
theorem onLq_other (d : Device) (n m : ChanNo) (f : LaunchQ → LaunchQ) (h : m ≠ n) : chan (onLq d n f) m = chan d m :=
  chan_onChan_other d n m _ h

/-- The jn part of the channel changed. -/
@[simp] theorem onJn_jn (d : Device) (n : ChanNo) (f : Journal → Journal) :
    (chan (onJn d n f) n).jn = f (chan d n).jn := by simp [onJn]

/-- The jn part of any channel. -/
theorem onJn_jn_any (d : Device) (n m : ChanNo) (f : Journal → Journal) :
    (chan (onJn d n f) m).jn = if m = n then f (chan d n).jn else (chan d m).jn := by
  unfold onJn; rw [chan_onChan]; split <;> rfl

@[simp] theorem onJn_fe (d : Device) (n m : ChanNo) (f : Journal → Journal) :
    (chan (onJn d n f) m).fe = (chan d m).fe := by unfold onJn; rw [chan_onChan]; split <;> simp_all
@[simp] theorem onJn_lq (d : Device) (n m : ChanNo) (f : Journal → Journal) :
    (chan (onJn d n f) m).lq = (chan d m).lq := by unfold onJn; rw [chan_onChan]; split <;> simp_all
@[simp] theorem onJn_slp (d : Device) (n m : ChanNo) (f : Journal → Journal) :
    (chan (onJn d n f) m).slp = (chan d m).slp := by unfold onJn; rw [chan_onChan]; split <;> simp_all
@[simp] theorem onJn_wake (d : Device) (n m : ChanNo) (f : Journal → Journal) :
    (chan (onJn d n f) m).wake = (chan d m).wake := by unfold onJn; rw [chan_onChan]; split <;> simp_all
@[simp] theorem onJn_line (d : Device) (n m : ChanNo) (f : Journal → Journal) :
    (chan (onJn d n f) m).line = (chan d m).line := by unfold onJn; rw [chan_onChan]; split <;> simp_all

/-- Every other channel. -/
theorem onJn_other (d : Device) (n m : ChanNo) (f : Journal → Journal) (h : m ≠ n) : chan (onJn d n f) m = chan d m :=
  chan_onChan_other d n m _ h

/-- The slp part of the channel changed. -/
@[simp] theorem onSlp_slp (d : Device) (n : ChanNo) (f : Sleep → Sleep) :
    (chan (onSlp d n f) n).slp = f (chan d n).slp := by simp [onSlp]

/-- The slp part of any channel. -/
theorem onSlp_slp_any (d : Device) (n m : ChanNo) (f : Sleep → Sleep) :
    (chan (onSlp d n f) m).slp = if m = n then f (chan d n).slp else (chan d m).slp := by
  unfold onSlp; rw [chan_onChan]; split <;> rfl

@[simp] theorem onSlp_fe (d : Device) (n m : ChanNo) (f : Sleep → Sleep) :
    (chan (onSlp d n f) m).fe = (chan d m).fe := by unfold onSlp; rw [chan_onChan]; split <;> simp_all
@[simp] theorem onSlp_lq (d : Device) (n m : ChanNo) (f : Sleep → Sleep) :
    (chan (onSlp d n f) m).lq = (chan d m).lq := by unfold onSlp; rw [chan_onChan]; split <;> simp_all
@[simp] theorem onSlp_jn (d : Device) (n m : ChanNo) (f : Sleep → Sleep) :
    (chan (onSlp d n f) m).jn = (chan d m).jn := by unfold onSlp; rw [chan_onChan]; split <;> simp_all
@[simp] theorem onSlp_wake (d : Device) (n m : ChanNo) (f : Sleep → Sleep) :
    (chan (onSlp d n f) m).wake = (chan d m).wake := by unfold onSlp; rw [chan_onChan]; split <;> simp_all
@[simp] theorem onSlp_line (d : Device) (n m : ChanNo) (f : Sleep → Sleep) :
    (chan (onSlp d n f) m).line = (chan d m).line := by unfold onSlp; rw [chan_onChan]; split <;> simp_all

/-- Every other channel. -/
theorem onSlp_other (d : Device) (n m : ChanNo) (f : Sleep → Sleep) (h : m ≠ n) : chan (onSlp d n f) m = chan d m :=
  chan_onChan_other d n m _ h

/-- The wake part of the channel changed. -/
@[simp] theorem onWake_wake (d : Device) (n : ChanNo) (f : Wake → Wake) :
    (chan (onWake d n f) n).wake = f (chan d n).wake := by simp [onWake]

/-- The wake part of any channel. -/
theorem onWake_wake_any (d : Device) (n m : ChanNo) (f : Wake → Wake) :
    (chan (onWake d n f) m).wake = if m = n then f (chan d n).wake else (chan d m).wake := by
  unfold onWake; rw [chan_onChan]; split <;> rfl

@[simp] theorem onWake_fe (d : Device) (n m : ChanNo) (f : Wake → Wake) :
    (chan (onWake d n f) m).fe = (chan d m).fe := by unfold onWake; rw [chan_onChan]; split <;> simp_all
@[simp] theorem onWake_lq (d : Device) (n m : ChanNo) (f : Wake → Wake) :
    (chan (onWake d n f) m).lq = (chan d m).lq := by unfold onWake; rw [chan_onChan]; split <;> simp_all
@[simp] theorem onWake_jn (d : Device) (n m : ChanNo) (f : Wake → Wake) :
    (chan (onWake d n f) m).jn = (chan d m).jn := by unfold onWake; rw [chan_onChan]; split <;> simp_all
@[simp] theorem onWake_slp (d : Device) (n m : ChanNo) (f : Wake → Wake) :
    (chan (onWake d n f) m).slp = (chan d m).slp := by unfold onWake; rw [chan_onChan]; split <;> simp_all
@[simp] theorem onWake_line (d : Device) (n m : ChanNo) (f : Wake → Wake) :
    (chan (onWake d n f) m).line = (chan d m).line := by unfold onWake; rw [chan_onChan]; split <;> simp_all

/-- Every other channel. -/
theorem onWake_other (d : Device) (n m : ChanNo) (f : Wake → Wake) (h : m ≠ n) : chan (onWake d n f) m = chan d m :=
  chan_onChan_other d n m _ h

/-- The line part of the channel changed. -/
@[simp] theorem onLine_line (d : Device) (n : ChanNo) (f : Line → Line) :
    (chan (onLine d n f) n).line = f (chan d n).line := by simp [onLine]

/-- The line part of any channel. -/
theorem onLine_line_any (d : Device) (n m : ChanNo) (f : Line → Line) :
    (chan (onLine d n f) m).line = if m = n then f (chan d n).line else (chan d m).line := by
  unfold onLine; rw [chan_onChan]; split <;> rfl

@[simp] theorem onLine_fe (d : Device) (n m : ChanNo) (f : Line → Line) :
    (chan (onLine d n f) m).fe = (chan d m).fe := by unfold onLine; rw [chan_onChan]; split <;> simp_all
@[simp] theorem onLine_lq (d : Device) (n m : ChanNo) (f : Line → Line) :
    (chan (onLine d n f) m).lq = (chan d m).lq := by unfold onLine; rw [chan_onChan]; split <;> simp_all
@[simp] theorem onLine_jn (d : Device) (n m : ChanNo) (f : Line → Line) :
    (chan (onLine d n f) m).jn = (chan d m).jn := by unfold onLine; rw [chan_onChan]; split <;> simp_all
@[simp] theorem onLine_slp (d : Device) (n m : ChanNo) (f : Line → Line) :
    (chan (onLine d n f) m).slp = (chan d m).slp := by unfold onLine; rw [chan_onChan]; split <;> simp_all
@[simp] theorem onLine_wake (d : Device) (n m : ChanNo) (f : Line → Line) :
    (chan (onLine d n f) m).wake = (chan d m).wake := by unfold onLine; rw [chan_onChan]; split <;> simp_all

/-- Every other channel. -/
theorem onLine_other (d : Device) (n m : ChanNo) (f : Line → Line) (h : m ≠ n) : chan (onLine d n f) m = chan d m :=
  chan_onChan_other d n m _ h

/-! ### Sentinels, engines, pin cells -/

@[simp] theorem onSent_tag (d : Device) (k : DieNo) (f : Sentinel → Sentinel) : (onSent d k f).tag = d.tag := rfl
@[simp] theorem onSent_glb (d : Device) (k : DieNo) (f : Sentinel → Sentinel) : (onSent d k f).glb = d.glb := rfl
@[simp] theorem onSent_lat (d : Device) (k : DieNo) (f : Sentinel → Sentinel) : (onSent d k f).lat = d.lat := rfl
@[simp] theorem onSent_ch (d : Device) (k : DieNo) (f : Sentinel → Sentinel) : (onSent d k f).ch = d.ch := rfl
@[simp] theorem onSent_sram (d : Device) (k : DieNo) (f : Sentinel → Sentinel) : (onSent d k f).sram = d.sram := rfl
@[simp] theorem onSent_tim (d : Device) (k : DieNo) (f : Sentinel → Sentinel) : (onSent d k f).tim = d.tim := rfl
@[simp] theorem onSent_ring (d : Device) (k : DieNo) (f : Sentinel → Sentinel) : (onSent d k f).ring = d.ring := rfl
@[simp] theorem onSent_locks (d : Device) (k : DieNo) (f : Sentinel → Sentinel) : (onSent d k f).locks = d.locks := rfl
@[simp] theorem onSent_con (d : Device) (k : DieNo) (f : Sentinel → Sentinel) : (onSent d k f).con = d.con := rfl
@[simp] theorem onSent_pair (d : Device) (k : DieNo) (f : Sentinel → Sentinel) : (onSent d k f).pair = d.pair := rfl
@[simp] theorem onSent_eng (d : Device) (k : DieNo) (f : Sentinel → Sentinel) : (onSent d k f).eng = d.eng := rfl
@[simp] theorem onSent_pin (d : Device) (k : DieNo) (f : Sentinel → Sentinel) : (onSent d k f).pin = d.pin := rfl
@[simp] theorem onSent_img (d : Device) (k : DieNo) (f : Sentinel → Sentinel) : (onSent d k f).img = d.img := rfl
@[simp] theorem onSent_svc (d : Device) (k : DieNo) (f : Sentinel → Sentinel) : (onSent d k f).svc = d.svc := rfl
@[simp] theorem onSent_flash (d : Device) (k : DieNo) (f : Sentinel → Sentinel) : (onSent d k f).flash = d.flash := rfl

/-- The one changed. -/
@[simp] theorem onSent_same (d : Device) (k : DieNo) (f : Sentinel → Sentinel) : (onSent d k f).sent[k] = f d.sent[k] := by
  simp [onSent]

/-- Every other one. -/
theorem onSent_other (d : Device) (k j : DieNo) (f : Sentinel → Sentinel) (h : j ≠ k) : (onSent d k f).sent[j] = d.sent[j] := by
  have h' : k.val ≠ j.val := fun e => h (Fin.ext e.symm)
  simp [onSent, h']

@[simp] theorem onEng_tag (d : Device) (k : EngNo) (f : Engine → Engine) : (onEng d k f).tag = d.tag := rfl
@[simp] theorem onEng_glb (d : Device) (k : EngNo) (f : Engine → Engine) : (onEng d k f).glb = d.glb := rfl
@[simp] theorem onEng_lat (d : Device) (k : EngNo) (f : Engine → Engine) : (onEng d k f).lat = d.lat := rfl
@[simp] theorem onEng_sent (d : Device) (k : EngNo) (f : Engine → Engine) : (onEng d k f).sent = d.sent := rfl
@[simp] theorem onEng_ch (d : Device) (k : EngNo) (f : Engine → Engine) : (onEng d k f).ch = d.ch := rfl
@[simp] theorem onEng_sram (d : Device) (k : EngNo) (f : Engine → Engine) : (onEng d k f).sram = d.sram := rfl
@[simp] theorem onEng_tim (d : Device) (k : EngNo) (f : Engine → Engine) : (onEng d k f).tim = d.tim := rfl
@[simp] theorem onEng_ring (d : Device) (k : EngNo) (f : Engine → Engine) : (onEng d k f).ring = d.ring := rfl
@[simp] theorem onEng_locks (d : Device) (k : EngNo) (f : Engine → Engine) : (onEng d k f).locks = d.locks := rfl
@[simp] theorem onEng_con (d : Device) (k : EngNo) (f : Engine → Engine) : (onEng d k f).con = d.con := rfl
@[simp] theorem onEng_pair (d : Device) (k : EngNo) (f : Engine → Engine) : (onEng d k f).pair = d.pair := rfl
@[simp] theorem onEng_pin (d : Device) (k : EngNo) (f : Engine → Engine) : (onEng d k f).pin = d.pin := rfl
@[simp] theorem onEng_img (d : Device) (k : EngNo) (f : Engine → Engine) : (onEng d k f).img = d.img := rfl
@[simp] theorem onEng_svc (d : Device) (k : EngNo) (f : Engine → Engine) : (onEng d k f).svc = d.svc := rfl
@[simp] theorem onEng_flash (d : Device) (k : EngNo) (f : Engine → Engine) : (onEng d k f).flash = d.flash := rfl

/-- The one changed. -/
@[simp] theorem onEng_same (d : Device) (k : EngNo) (f : Engine → Engine) : (onEng d k f).eng[k] = f d.eng[k] := by
  simp [onEng]

/-- Every other one. -/
theorem onEng_other (d : Device) (k j : EngNo) (f : Engine → Engine) (h : j ≠ k) : (onEng d k f).eng[j] = d.eng[j] := by
  have h' : k.val ≠ j.val := fun e => h (Fin.ext e.symm)
  simp [onEng, h']

@[simp] theorem onPin_tag (d : Device) (k : PinNo) (f : PinCell → PinCell) : (onPin d k f).tag = d.tag := rfl
@[simp] theorem onPin_glb (d : Device) (k : PinNo) (f : PinCell → PinCell) : (onPin d k f).glb = d.glb := rfl
@[simp] theorem onPin_lat (d : Device) (k : PinNo) (f : PinCell → PinCell) : (onPin d k f).lat = d.lat := rfl
@[simp] theorem onPin_sent (d : Device) (k : PinNo) (f : PinCell → PinCell) : (onPin d k f).sent = d.sent := rfl
@[simp] theorem onPin_ch (d : Device) (k : PinNo) (f : PinCell → PinCell) : (onPin d k f).ch = d.ch := rfl
@[simp] theorem onPin_sram (d : Device) (k : PinNo) (f : PinCell → PinCell) : (onPin d k f).sram = d.sram := rfl
@[simp] theorem onPin_tim (d : Device) (k : PinNo) (f : PinCell → PinCell) : (onPin d k f).tim = d.tim := rfl
@[simp] theorem onPin_ring (d : Device) (k : PinNo) (f : PinCell → PinCell) : (onPin d k f).ring = d.ring := rfl
@[simp] theorem onPin_locks (d : Device) (k : PinNo) (f : PinCell → PinCell) : (onPin d k f).locks = d.locks := rfl
@[simp] theorem onPin_con (d : Device) (k : PinNo) (f : PinCell → PinCell) : (onPin d k f).con = d.con := rfl
@[simp] theorem onPin_pair (d : Device) (k : PinNo) (f : PinCell → PinCell) : (onPin d k f).pair = d.pair := rfl
@[simp] theorem onPin_eng (d : Device) (k : PinNo) (f : PinCell → PinCell) : (onPin d k f).eng = d.eng := rfl
@[simp] theorem onPin_img (d : Device) (k : PinNo) (f : PinCell → PinCell) : (onPin d k f).img = d.img := rfl
@[simp] theorem onPin_svc (d : Device) (k : PinNo) (f : PinCell → PinCell) : (onPin d k f).svc = d.svc := rfl
@[simp] theorem onPin_flash (d : Device) (k : PinNo) (f : PinCell → PinCell) : (onPin d k f).flash = d.flash := rfl

/-- The one changed. -/
@[simp] theorem onPin_same (d : Device) (k : PinNo) (f : PinCell → PinCell) : (onPin d k f).pin[k] = f d.pin[k] := by
  simp [onPin]

/-- Every other one. -/
theorem onPin_other (d : Device) (k j : PinNo) (f : PinCell → PinCell) (h : j ≠ k) : (onPin d k f).pin[j] = d.pin[j] := by
  have h' : k.val ≠ j.val := fun e => h (Fin.ext e.symm)
  simp [onPin, h']

/-! ### Lane ports -/

@[simp] theorem onPort_tag (d : Device) (p : Port) (f : LanePort → LanePort) : (onPort d p f).tag = d.tag := by cases p <;> rfl
@[simp] theorem onPort_glb (d : Device) (p : Port) (f : LanePort → LanePort) : (onPort d p f).glb = d.glb := by cases p <;> rfl
@[simp] theorem onPort_lat (d : Device) (p : Port) (f : LanePort → LanePort) : (onPort d p f).lat = d.lat := by cases p <;> rfl
@[simp] theorem onPort_sent (d : Device) (p : Port) (f : LanePort → LanePort) : (onPort d p f).sent = d.sent := by cases p <;> rfl
@[simp] theorem onPort_ch (d : Device) (p : Port) (f : LanePort → LanePort) : (onPort d p f).ch = d.ch := by cases p <;> rfl
@[simp] theorem onPort_sram (d : Device) (p : Port) (f : LanePort → LanePort) : (onPort d p f).sram = d.sram := by cases p <;> rfl
@[simp] theorem onPort_tim (d : Device) (p : Port) (f : LanePort → LanePort) : (onPort d p f).tim = d.tim := by cases p <;> rfl
@[simp] theorem onPort_locks (d : Device) (p : Port) (f : LanePort → LanePort) : (onPort d p f).locks = d.locks := by cases p <;> rfl
@[simp] theorem onPort_con (d : Device) (p : Port) (f : LanePort → LanePort) : (onPort d p f).con = d.con := by cases p <;> rfl
@[simp] theorem onPort_pair (d : Device) (p : Port) (f : LanePort → LanePort) : (onPort d p f).pair = d.pair := by cases p <;> rfl
@[simp] theorem onPort_eng (d : Device) (p : Port) (f : LanePort → LanePort) : (onPort d p f).eng = d.eng := by cases p <;> rfl
@[simp] theorem onPort_pin (d : Device) (p : Port) (f : LanePort → LanePort) : (onPort d p f).pin = d.pin := by cases p <;> rfl
@[simp] theorem onPort_img (d : Device) (p : Port) (f : LanePort → LanePort) : (onPort d p f).img = d.img := by cases p <;> rfl
@[simp] theorem onPort_svc (d : Device) (p : Port) (f : LanePort → LanePort) : (onPort d p f).svc = d.svc := by cases p <;> rfl
@[simp] theorem onPort_flash (d : Device) (p : Port) (f : LanePort → LanePort) : (onPort d p f).flash = d.flash := by cases p <;> rfl

/-- The port changed. -/
@[simp] theorem port_onPort_same (d : Device) (p : Port) (f : LanePort → LanePort) : port (onPort d p f) p = f (port d p) := by
  cases p <;> rfl

/-- Every other port. -/
theorem port_onPort_other (d : Device) (p q : Port) (f : LanePort → LanePort) (h : q ≠ p) :
    port (onPort d p f) q = port d q := by
  cases p <;> cases q <;> first | rfl | exact absurd rfl h

@[simp] theorem onPort_ring_en (d : Device) (p : Port) (f : LanePort → LanePort) : (onPort d p f).ring.en = d.ring.en := by cases p <;> rfl
@[simp] theorem onPort_ring_station (d : Device) (p : Port) (f : LanePort → LanePort) : (onPort d p f).ring.station = d.ring.station := by cases p <;> rfl
@[simp] theorem onPort_ring_numbered (d : Device) (p : Port) (f : LanePort → LanePort) : (onPort d p f).ring.numbered = d.ring.numbered := by cases p <;> rfl
@[simp] theorem onPort_ring_topoEast (d : Device) (p : Port) (f : LanePort → LanePort) : (onPort d p f).ring.topoEast = d.ring.topoEast := by cases p <;> rfl
@[simp] theorem onPort_ring_topoWest (d : Device) (p : Port) (f : LanePort → LanePort) : (onPort d p f).ring.topoWest = d.ring.topoWest := by cases p <;> rfl
@[simp] theorem onPort_ring_join (d : Device) (p : Port) (f : LanePort → LanePort) : (onPort d p f).ring.join = d.ring.join := by cases p <;> rfl
@[simp] theorem onPort_ring_joinRaw (d : Device) (p : Port) (f : LanePort → LanePort) : (onPort d p f).ring.joinRaw = d.ring.joinRaw := by cases p <;> rfl
@[simp] theorem onPort_ring_wrapEast (d : Device) (p : Port) (f : LanePort → LanePort) : (onPort d p f).ring.wrapEast = d.ring.wrapEast := by cases p <;> rfl
@[simp] theorem onPort_ring_wrapWest (d : Device) (p : Port) (f : LanePort → LanePort) : (onPort d p f).ring.wrapWest = d.ring.wrapWest := by cases p <;> rfl
@[simp] theorem onPort_ring_epoch (d : Device) (p : Port) (f : LanePort → LanePort) : (onPort d p f).ring.epoch = d.ring.epoch := by cases p <;> rfl
@[simp] theorem onPort_ring_tmo (d : Device) (p : Port) (f : LanePort → LanePort) : (onPort d p f).ring.tmo = d.ring.tmo := by cases p <;> rfl
@[simp] theorem onPort_ring_err (d : Device) (p : Port) (f : LanePort → LanePort) : (onPort d p f).ring.err = d.ring.err := by cases p <;> rfl
@[simp] theorem onPort_ring_nextSeq (d : Device) (p : Port) (f : LanePort → LanePort) : (onPort d p f).ring.nextSeq = d.ring.nextSeq := by cases p <;> rfl
@[simp] theorem onPort_ring_tokens (d : Device) (p : Port) (f : LanePort → LanePort) : (onPort d p f).ring.tokens = d.ring.tokens := by cases p <;> rfl
@[simp] theorem onPort_ring_sfp (d : Device) (p : Port) (f : LanePort → LanePort) : (onPort d p f).ring.sfp = d.ring.sfp := by cases p <;> rfl
@[simp] theorem onPort_ring_maps (d : Device) (p : Port) (f : LanePort → LanePort) : (onPort d p f).ring.maps = d.ring.maps := by cases p <;> rfl
@[simp] theorem onPort_ring_pairs (d : Device) (p : Port) (f : LanePort → LanePort) : (onPort d p f).ring.pairs = d.ring.pairs := by cases p <;> rfl
@[simp] theorem onPort_ring_seen (d : Device) (p : Port) (f : LanePort → LanePort) : (onPort d p f).ring.seen = d.ring.seen := by cases p <;> rfl
@[simp] theorem onPort_ring_dropEast (d : Device) (p : Port) (f : LanePort → LanePort) : (onPort d p f).ring.dropEast = d.ring.dropEast := by cases p <;> rfl
@[simp] theorem onPort_ring_dropWest (d : Device) (p : Port) (f : LanePort → LanePort) : (onPort d p f).ring.dropWest = d.ring.dropWest := by cases p <;> rfl
@[simp] theorem onPort_ring_outEast (d : Device) (p : Port) (f : LanePort → LanePort) : (onPort d p f).ring.outEast = d.ring.outEast := by cases p <;> rfl
@[simp] theorem onPort_ring_outWest (d : Device) (p : Port) (f : LanePort → LanePort) : (onPort d p f).ring.outWest = d.ring.outWest := by cases p <;> rfl
@[simp] theorem onPort_ring_bufEast (d : Device) (p : Port) (f : LanePort → LanePort) : (onPort d p f).ring.bufEast = d.ring.bufEast := by cases p <;> rfl
@[simp] theorem onPort_ring_bufWest (d : Device) (p : Port) (f : LanePort → LanePort) : (onPort d p f).ring.bufWest = d.ring.bufWest := by cases p <;> rfl
@[simp] theorem onPort_ring_laneEast (d : Device) (p : Port) (f : LanePort → LanePort) : (onPort d p f).ring.laneEast = d.ring.laneEast := by cases p <;> rfl
@[simp] theorem onPort_ring_laneWest (d : Device) (p : Port) (f : LanePort → LanePort) : (onPort d p f).ring.laneWest = d.ring.laneWest := by cases p <;> rfl
@[simp] theorem onPort_ring_laneMirror (d : Device) (p : Port) (f : LanePort → LanePort) : (onPort d p f).ring.laneMirror = d.ring.laneMirror := by cases p <;> rfl
@[simp] theorem onPort_ring_reqs (d : Device) (p : Port) (f : LanePort → LanePort) : (onPort d p f).ring.reqs = d.ring.reqs := by cases p <;> rfl
@[simp] theorem onPort_ring_retry (d : Device) (p : Port) (f : LanePort → LanePort) : (onPort d p f).ring.retry = d.ring.retry := by cases p <;> rfl
@[simp] theorem onPort_ring_done (d : Device) (p : Port) (f : LanePort → LanePort) : (onPort d p f).ring.done = d.ring.done := by cases p <;> rfl

/-! ### The high-half latches and the answers of reads -/

@[simp] theorem latchHi_tag (d : Device) (a : Nat) (w : Word) : (latchHi d a w).tag = d.tag := rfl
@[simp] theorem latchHi_lat (d : Device) (a : Nat) (w : Word) : (latchHi d a w).lat = d.lat := rfl
@[simp] theorem latchHi_sent (d : Device) (a : Nat) (w : Word) : (latchHi d a w).sent = d.sent := rfl
@[simp] theorem latchHi_ch (d : Device) (a : Nat) (w : Word) : (latchHi d a w).ch = d.ch := rfl
@[simp] theorem latchHi_sram (d : Device) (a : Nat) (w : Word) : (latchHi d a w).sram = d.sram := rfl
@[simp] theorem latchHi_tim (d : Device) (a : Nat) (w : Word) : (latchHi d a w).tim = d.tim := rfl
@[simp] theorem latchHi_ring (d : Device) (a : Nat) (w : Word) : (latchHi d a w).ring = d.ring := rfl
@[simp] theorem latchHi_locks (d : Device) (a : Nat) (w : Word) : (latchHi d a w).locks = d.locks := rfl
@[simp] theorem latchHi_con (d : Device) (a : Nat) (w : Word) : (latchHi d a w).con = d.con := rfl
@[simp] theorem latchHi_pair (d : Device) (a : Nat) (w : Word) : (latchHi d a w).pair = d.pair := rfl
@[simp] theorem latchHi_eng (d : Device) (a : Nat) (w : Word) : (latchHi d a w).eng = d.eng := rfl
@[simp] theorem latchHi_pin (d : Device) (a : Nat) (w : Word) : (latchHi d a w).pin = d.pin := rfl
@[simp] theorem latchHi_img (d : Device) (a : Nat) (w : Word) : (latchHi d a w).img = d.img := rfl
@[simp] theorem latchHi_svc (d : Device) (a : Nat) (w : Word) : (latchHi d a w).svc = d.svc := rfl
@[simp] theorem latchHi_flash (d : Device) (a : Nat) (w : Word) : (latchHi d a w).flash = d.flash := rfl

/-- A lattice command while the lattice die runs. -/
theorem latAct_up (s : State) (f : Device → Device) (h : s.dev.glb.latUp = true) : latAct s f = .next { s with dev := f s.dev } := by
  simp [latAct, act, h]

/-- A lattice command while the lattice die is in reset. -/
theorem latAct_down (s : State) (f : Device → Device) (h : s.dev.glb.latUp = false) : latAct s f = .next s := by
  simp [latAct, act, h]

/-- An always-on command while VAON is up. -/
theorem vaonAct_up (s : State) (f : Device → Device) (h : s.dev.glb.vaonUp = true) :
    vaonAct s f = .next { s with dev := f s.dev } := by
  simp [vaonAct, act, h]

/-- An always-on command without VAON. -/
theorem vaonAct_down (s : State) (f : Device → Device) (h : s.dev.glb.vaonUp = false) : vaonAct s f = .next s := by
  simp [vaonAct, act, h]

end Sys2Proof.Machine
end

