-- ==== Sys2Proof/Laws/Tab.lean ====
section
/-! SUPPORT. The laws of the sparse stores: read after write, every other key, and that every operation keeps the canonical form. -/

namespace Sys2Proof.Machine

variable {α : Type}

/-! ### Keys above a bound -/

@[simp] theorem tabAbove_nil (k : Nat) : tabAbove k ([] : Tab α) = true := rfl

@[simp] theorem tabAbove_cons (k j : Nat) (v : α) (r : Tab α) : tabAbove k ((j, v) :: r) = (decide (k < j) && tabAbove k r) := rfl

theorem tabAbove_mono {k j : Nat} {t : Tab α} (h : j ≤ k) (ht : tabAbove k t = true) : tabAbove j t = true := by
  simp only [tabAbove, List.all_eq_true, decide_eq_true_eq] at *
  exact fun e he => lt_of_le_of_lt h (ht e he)

/-! ### Rising keys -/

theorem tabSorted_cons {k : Nat} {v : α} {r : Tab α} : tabSorted ((k, v) :: r) = (tabAbove k r && tabSorted r) := rfl

theorem tabAbove_filter {k : Nat} {t : Tab α} (p : Nat × α → Bool) (h : tabAbove k t = true) : tabAbove k (t.filter p) = true := by
  simp only [tabAbove, List.all_eq_true, decide_eq_true_eq] at *
  exact fun e he => h e (List.mem_of_mem_filter he)

theorem tabSorted_filter {t : Tab α} (p : Nat × α → Bool) (h : tabSorted t = true) : tabSorted (t.filter p) = true := by
  induction t with
  | nil => rfl
  | cons e r ih =>
    obtain ⟨j, w⟩ := e
    simp only [tabSorted_cons, Bool.and_eq_true] at h
    rw [List.filter_cons]
    split
    · simp [tabSorted_cons, tabAbove_filter p h.1, ih h.2]
    · exact ih h.2

theorem tabSorted_append {a b : Tab α} (ha : tabSorted a = true) (hb : tabSorted b = true)
    (h : ∀ e ∈ a, tabAbove e.1 b = true) : tabSorted (a ++ b) = true := by
  induction a with
  | nil => exact hb
  | cons e r ih =>
    obtain ⟨j, w⟩ := e
    simp only [tabSorted_cons, Bool.and_eq_true] at ha
    simp only [List.cons_append, tabSorted_cons, Bool.and_eq_true]
    refine ⟨?_, ih ha.2 fun e he => h e (List.mem_cons_of_mem _ he)⟩
    have h0 := h (j, w) (List.mem_cons_self ..)
    simp only [tabAbove, List.all_append, Bool.and_eq_true] at *
    exact ⟨ha.1, h0⟩

theorem tabSorted_erase {k : Nat} {t : Tab α} (h : tabSorted t = true) : tabSorted (tabErase t k) = true :=
  tabSorted_filter _ h

theorem tabSorted_insert {k : Nat} {v : α} {t : Tab α} (h : tabSorted t = true) : tabSorted (tabInsert t k v) = true := by
  have above : tabAbove k (t.filter (fun e => decide (k < e.1))) = true := by
    simp only [tabAbove, List.all_eq_true]
    exact fun e he => (List.mem_filter.1 he).2
  refine tabSorted_append (tabSorted_filter _ h) ?_ ?_
  · simp [tabSorted_cons, above, tabSorted_filter _ h]
  · intro e he
    have he := of_decide_eq_true (List.mem_filter.1 he).2
    simp [he, tabAbove_mono (le_of_lt he) above]

/-! ### Reading -/

theorem tabFind_append (a b : Tab α) (m : Nat) : tabFind (a ++ b) m = (tabFind a m).or (tabFind b m) := by
  induction a with
  | nil => rfl
  | cons e r ih =>
    simp only [List.cons_append, tabFind]
    split <;> simp [*]

theorem tabFind_filter_out {t : Tab α} {p : Nat × α → Bool} {m : Nat} (h : ∀ v, p (m, v) = false) :
    tabFind (t.filter p) m = none := by
  induction t with
  | nil => rfl
  | cons e r ih =>
    obtain ⟨j, w⟩ := e
    rw [List.filter_cons]
    split
    · simp only [tabFind]
      split
      · subst_vars; simp_all
      · exact ih
    · exact ih

theorem tabFind_filter_in {t : Tab α} {p : Nat × α → Bool} {m : Nat} (h : ∀ v, p (m, v) = true) :
    tabFind (t.filter p) m = tabFind t m := by
  induction t with
  | nil => rfl
  | cons e r ih =>
    obtain ⟨j, w⟩ := e
    rw [List.filter_cons]
    split
    · simp only [tabFind, ih]
    · simp only [tabFind]
      split
      · subst_vars; simp_all
      · exact ih

theorem tabFind_insert_same (k : Nat) (v : α) (t : Tab α) : tabFind (tabInsert t k v) k = some v := by
  simp [tabInsert, tabFind_append, tabFind_filter_out, tabFind]

theorem tabFind_insert_other {k m : Nat} (v : α) (t : Tab α) (h : m ≠ k) : tabFind (tabInsert t k v) m = tabFind t m := by
  simp only [tabInsert, tabFind_append, tabFind, Ne.symm h, if_false]
  rcases Nat.lt_or_gt_of_ne h with hm | hm
  · rw [tabFind_filter_in (m := m) (fun _ => by simpa using hm), tabFind_filter_out (m := m) (fun _ => by simp; omega)]
    simp
  · rw [tabFind_filter_out (m := m) (fun _ => by simp; omega), tabFind_filter_in (m := m) (fun _ => by simpa using hm)]
    simp

theorem tabFind_erase_same (k : Nat) (t : Tab α) : tabFind (tabErase t k) k = none := tabFind_filter_out (fun _ => by simp)

theorem tabFind_erase_other {k m : Nat} (t : Tab α) (hm : m ≠ k) : tabFind (tabErase t k) m = tabFind t m :=
  tabFind_filter_in (fun _ => by simpa using hm)

variable [DecidableEq α]

/-- The canonical form gives rising keys. -/
theorem tabWf_sorted {dflt : α} {t : Tab α} (h : tabWf dflt t = true) : tabSorted t = true := by
  simp only [tabWf, Bool.and_eq_true] at h
  exact h.1

/-- Read after write, the same key. -/
@[simp] theorem tabGet_tabSet_same (dflt : α) (t : Tab α) (k : Nat) (v : α) : tabGet dflt (tabSet dflt t k v) k = v := by
  unfold tabGet tabSet
  split
  · simp [tabFind_erase_same, *]
  · simp [tabFind_insert_same]

/-- Read after write, every other key. -/
theorem tabGet_tabSet_other {dflt : α} {t : Tab α} {k m : Nat} (v : α) (hm : m ≠ k) :
    tabGet dflt (tabSet dflt t k v) m = tabGet dflt t m := by
  unfold tabGet tabSet
  split
  · rw [tabFind_erase_other t hm]
  · rw [tabFind_insert_other v t hm]

/-- A write keeps the canonical form. -/
@[simp] theorem tabWf_tabSet {dflt : α} {t : Tab α} (k : Nat) (v : α) (h : tabWf dflt t = true) :
    tabWf dflt (tabSet dflt t k v) = true := by
  simp only [tabWf, Bool.and_eq_true, List.all_eq_true, decide_eq_true_eq] at *
  unfold tabSet
  split
  · exact ⟨tabSorted_erase h.1, fun e he => h.2 e (List.mem_of_mem_filter he)⟩
  · refine ⟨tabSorted_insert h.1, fun e he => ?_⟩
    rcases List.mem_append.1 he with he | he
    · exact h.2 e (List.mem_of_mem_filter he)
    · rcases List.mem_cons.1 he with rfl | he
      · assumption
      · exact h.2 e (List.mem_of_mem_filter he)

/-- Removing entries keeps the canonical form. -/
theorem tabWf_filter {dflt : α} {t : Tab α} (p : Nat × α → Bool) (h : tabWf dflt t = true) : tabWf dflt (t.filter p) = true := by
  simp only [tabWf, Bool.and_eq_true, List.all_eq_true] at *
  exact ⟨tabSorted_filter p h.1, fun e he => h.2 e (List.mem_of_mem_filter he)⟩

/-! ### The stores of the device -/

/-- A memory that lists nothing is canonical: SRAM and flash at reset. -/
theorem storesWf_reset : storesWf State.reset.dev = true := by decide

/-- What leaves the SRAM and the flash as they were keeps their canonical form. -/
theorem storesWf_same {d d' : Device} (hs : d'.sram = d.sram) (hf : d'.flash = d.flash) : storesWf d' = storesWf d := by
  unfold storesWf; rw [hs, hf]

/-- Writing an SRAM word keeps the canonical form. -/
theorem sramWf_sramSetWord {d : Device} (a : Nat) (w : Word) (e : Bool) (h : sramWf d.sram = true) :
    sramWf (sramSetWord d a w e).sram = true := by
  simp only [sramWf, Bool.and_eq_true] at *
  obtain ⟨⟨h1, h2⟩, h3⟩ := h
  refine ⟨⟨?_, tabWf_tabSet a e h2⟩, tabWf_tabSet a (0 : BitVec 40) h3⟩
  exact tabWf_tabSet _ _ (tabWf_tabSet _ _ (tabWf_tabSet _ _ (tabWf_tabSet _ _ h1)))

/-- Writing an SRAM word keeps every store canonical. -/
theorem storesWf_sramSetWord {d : Device} (a : Nat) (w : Word) (e : Bool) (h : storesWf d = true) :
    storesWf (sramSetWord d a w e) = true := by
  simp only [storesWf, Bool.and_eq_true] at *
  exact ⟨sramWf_sramSetWord a w e h.1, h.2⟩

end Sys2Proof.Machine
end

