-- ==== Sys2Proof/Laws/Memory.lean ====
section
/-! SUPPORT. What an operation that stores nothing leaves: one lemma per shared operation that touches neither the SRAM
nor the flash, `<operation>_mem`, and the rules that turn such a lemma into one about the canonical form of the stores. -/

/- One law after another, since their tactics run side by side take more memory than they save time. -/
set_option Elab.async false

namespace Sys2Proof.Machine
/-- What the machine remembers in addressed stores: the SRAM and the flash. -/
def memOf (d : Device) : Sram × Flash := (d.sram, d.flash)

/-- What leaves the stores as they were keeps their canonical form. -/
theorem storesWf_memOf {d d' : Device} (h : memOf d' = memOf d) : storesWf d' = storesWf d :=
  storesWf_same (congrArg Prod.fst h) (congrArg Prod.snd h)

/-- The same, from the form before to the form after. -/
theorem storesWf_keep {d d' : Device} (h : memOf d' = memOf d) (h_ : storesWf d = true) : storesWf d' = true :=
  (storesWf_memOf h).trans h_

/-- A fold of an operation that stores nothing stores nothing. -/
theorem foldl_mem {β : Type} (f : Device → β → Device) (l : List β) (d : Device) (h : ∀ d x, memOf (f d x) = memOf d) :
    memOf (l.foldl f d) = memOf d := by
  induction l generalizing d with
  | nil => rfl
  | cons x r ih => rw [List.foldl_cons, ih, h]

theorem forChans_mem (d : Device) (ns : List ChanNo) (f : Device → ChanNo → Device) (h : ∀ d n, memOf (f d n) = memOf d) :
    memOf (forChans d ns f) = memOf d := foldl_mem f ns d h

/-- A fold of an operation that keeps the canonical form keeps it. -/
theorem foldl_wf {β : Type} (f : Device → β → Device) (l : List β) (d : Device)
    (h : ∀ d x, storesWf d = true → storesWf (f d x) = true) (hd : storesWf d = true) : storesWf (l.foldl f d) = true := by
  induction l generalizing d with
  | nil => exact hd
  | cons x r ih => exact ih _ (h d x hd)

theorem forChans_wf (d : Device) (ns : List ChanNo) (f : Device → ChanNo → Device)
    (h : ∀ d n, storesWf d = true → storesWf (f d n) = true) (hd : storesWf d = true) : storesWf (forChans d ns f) = true :=
  foldl_wf f ns d h hd
theorem onSvc_mem (d : Device) (f : Service → Service) :
    memOf (onSvc d f) = memOf d := by
  unfold onSvc
  grind -ring -linarith -lia -ac -order [memOf]
theorem onImg_mem (d : Device) (f : Loader → Loader) :
    memOf (onImg d f) = memOf d := by
  unfold onImg
  grind -ring -linarith -lia -ac -order [memOf]
theorem onChan_mem (d : Device) (n : ChanNo) (f : Channel → Channel) :
    memOf (onChan d n f) = memOf d := by rfl
theorem onFe_mem (d : Device) (n : ChanNo) (f : FrameEngine → FrameEngine) :
    memOf (onFe d n f) = memOf d := by rfl
theorem onLq_mem (d : Device) (n : ChanNo) (f : LaunchQ → LaunchQ) :
    memOf (onLq d n f) = memOf d := by rfl
theorem onJn_mem (d : Device) (n : ChanNo) (f : Journal → Journal) :
    memOf (onJn d n f) = memOf d := by rfl
theorem onSlp_mem (d : Device) (n : ChanNo) (f : Sleep → Sleep) :
    memOf (onSlp d n f) = memOf d := by rfl
theorem onWake_mem (d : Device) (n : ChanNo) (f : Wake → Wake) :
    memOf (onWake d n f) = memOf d := by rfl
theorem onLine_mem (d : Device) (n : ChanNo) (f : Line → Line) :
    memOf (onLine d n f) = memOf d := by rfl
theorem onSent_mem (d : Device) (k : DieNo) (f : Sentinel → Sentinel) :
    memOf (onSent d k f) = memOf d := by rfl
theorem onEng_mem (d : Device) (k : EngNo) (f : Engine → Engine) :
    memOf (onEng d k f) = memOf d := by rfl
theorem onPin_mem (d : Device) (p : PinNo) (f : PinCell → PinCell) :
    memOf (onPin d p f) = memOf d := by rfl
theorem onPort_mem (d : Device) (p : Port) (f : LanePort → LanePort) :
    memOf (onPort d p f) = memOf d := by
  cases p <;> rfl
theorem takeFree_mem (d : Device) :
    memOf (takeFree d).2 = memOf d := by
  unfold takeFree
  grind -ring -linarith -lia -ac -order [memOf]
theorem latchHi_mem (d : Device) (off : Nat) (w : Word) :
    memOf (latchHi d off w) = memOf d := by rfl
theorem glbErr_mem (d : Device) (bit : Nat) (src : Src) (off : Nat) :
    memOf (glbErr d bit src off) = memOf d := by
  unfold glbErr
  grind -ring -linarith -lia -ac -order [memOf]
theorem checkedRead_mem (d : Device) (a : Nat) :
    memOf (checkedRead d a).2 = memOf d := by
  unfold checkedRead
  grind -ring -linarith -lia -ac -order [takeFree_mem, memOf]
theorem onMap_mem (d : Device) (s : BitVec 10) (f : MapEnt → MapEnt) :
    memOf (onMap d s f) = memOf d := by
  unfold onMap
  grind -ring -linarith -lia -ac -order [memOf]
theorem queueOut_mem (d : Device) (q : ReqNo) (s : Side) (c : RCell) :
    memOf (queueOut d q s c) = memOf d := by
  unfold queueOut
  grind -ring -linarith -lia -ac -order [memOf]
theorem newCell_mem (d : Device) (ctype : BitVec 6) (dest : BitVec 10) (epoch : BitVec 8) (payload : List Byte) :
    memOf (newCell d ctype dest epoch payload).2 = memOf d := by
  unfold newCell
  grind -ring -linarith -lia -ac -order [memOf]
theorem sendBroadcast_mem (d : Device) (q : ReqNo) (ctype : BitVec 6) (payload : List Byte) :
    memOf (sendBroadcast d q ctype payload) = memOf d := by
  unfold sendBroadcast
  grind -ring -linarith -lia -ac -order [newCell_mem, queueOut_mem, memOf]
theorem sendResponse_mem (d : Device) (q : ReqNo) (req : RCell) (ctype : BitVec 6) (status : BitVec 8) (payload : List Byte) :
    memOf (sendResponse d q req ctype status payload) = memOf d := by
  unfold sendResponse
  grind -ring -linarith -lia -ac -order [newCell_mem, queueOut_mem, memOf]
theorem event_mem (d : Device) (code : Nat) (unit : Nat) (stamp : Raw) (gen : BitVec 4) (detail : Nat) :
    memOf (event d code unit stamp gen detail) = memOf d := by
  unfold event
  grind -ring -linarith -lia -ac -order [newCell_mem, queueOut_mem, memOf]
theorem eventNow_mem (d : Device) (code : Nat) (unit : Nat) (detail : Nat) :
    memOf (eventNow d code unit detail) = memOf d := by
  unfold eventNow
  grind -ring -linarith -lia -ac -order [event_mem, memOf]
theorem eccCount_mem (d : Device) (c : Checked) :
    memOf (eccCount d c) = memOf d := by
  unfold eccCount
  grind -ring -linarith -lia -ac -order [eventNow_mem, memOf]
theorem memRead_mem (d : Device) (a : Nat) :
    memOf (memRead d a).2 = memOf d := by
  unfold memRead
  grind -ring -linarith -lia -ac -order [checkedRead_mem, eccCount_mem, memOf]
theorem memCount_mem (d : Device) (as : List Nat) :
    memOf (memCount d as) = memOf d := by
  unfold memCount
  grind -ring -linarith -lia -ac -order [memRead_mem, memOf, foldl_mem, forChans_mem]
theorem mirrorQueue_mem (d : Device) (q : ReqNo) (m : MirMsg) :
    memOf (mirrorQueue d q m) = memOf d := by
  unfold mirrorQueue
  grind -ring -linarith -lia -ac -order [memOf]
theorem mirrorChan_mem (d : Device) (n : ChanNo) (m : MirMsg) :
    memOf (mirrorChan d n m) = memOf d := by
  unfold mirrorChan
  grind -ring -linarith -lia -ac -order [mirrorQueue_mem, memOf]
theorem mirrorActive_mem (d : Device) (q : ReqNo) (m : MirMsg) :
    memOf (mirrorActive d q m) = memOf d := by
  unfold mirrorActive
  grind -ring -linarith -lia -ac -order [mirrorQueue_mem, memOf]
theorem onArb_mem (d : Device) (r : ResNo) (f : Arbiter → Arbiter) :
    memOf (onArb d r f) = memOf d := by
  unfold onArb
  grind -ring -linarith -lia -ac -order [memOf]
theorem takeTables_mem (d : Device) (r : ResNo) :
    memOf (takeTables d r) = memOf d := by
  unfold takeTables
  grind -ring -linarith -lia -ac -order [onArb_mem, memOf, foldl_mem, forChans_mem]
theorem askAgain_mem (d : Device) (r : ResNo) (u : ReqNo) :
    memOf (askAgain d r u) = memOf d := by
  unfold askAgain
  grind -ring -linarith -lia -ac -order [onArb_mem, memOf]
theorem useBank_mem (d : Device) (x : Requester) (r : ResNo) :
    memOf (useBank d x r) = memOf d := by
  unfold useBank
  grind -ring -linarith -lia -ac -order [askAgain_mem, onArb_mem, takeTables_mem, memOf]
theorem askFor_mem (d : Device) (x : Requester) (r : ResNo) :
    memOf (askFor d x r) = memOf d := by
  unfold askFor
  grind -ring -linarith -lia -ac -order [onArb_mem, memOf]
theorem turnTo_mem (d : Device) (x : Requester) (r : ResNo) :
    memOf (turnTo d x r) = memOf d := by
  unfold turnTo
  grind -ring -linarith -lia -ac -order [askFor_mem, memOf]
theorem noWait_mem (d : Device) (x : Requester) (w : ConWork) :
    memOf (noWait d x w) = memOf d := by
  unfold noWait
  grind -ring -linarith -lia -ac -order [memOf]
theorem useAll_mem (d : Device) (x : Requester) (w : ConWork) (rs : List ResNo) :
    memOf (useAll d x w rs) = memOf d := by
  unfold useAll
  grind -ring -linarith -lia -ac -order [noWait_mem, useBank_mem, memOf, foldl_mem, forChans_mem]
theorem awaitAll_mem (d : Device) (x : Requester) (w : ConWork) (rs : List ResNo) :
    memOf (awaitAll d x w rs) = memOf d := by
  unfold awaitAll
  grind -ring -linarith -lia -ac -order [noWait_mem, turnTo_mem, memOf]
theorem lqKeep_mem (d : Device) (n : ChanNo) (i : LqIdx) (e : LqEnt) :
    memOf (lqKeep d n i e) = memOf d := by
  unfold lqKeep
  grind -ring -linarith -lia -ac -order [onLq_mem, memOf]
theorem lqHold_mem (d : Device) (n : ChanNo) (i : LqIdx) (e : LqEnt) :
    memOf (lqHold d n i e) = memOf d := by
  unfold lqHold
  grind -ring -linarith -lia -ac -order [lqKeep_mem, memOf]
theorem lqPut_mem (d : Device) (n : ChanNo) (i : LqIdx) (e : LqEnt) (committed : Bool) :
    memOf (lqPut d n i e committed) = memOf d := by
  unfold lqPut
  grind -ring -linarith -lia -ac -order [lqHold_mem, mirrorChan_mem, memOf]
theorem lqFree_mem (d : Device) (n : ChanNo) (i : LqIdx) :
    memOf (lqFree d n i) = memOf d := by
  unfold lqFree
  grind -ring -linarith -lia -ac -order [lqPut_mem, memOf]
theorem freeEcho_mem (d : Device) (n : ChanNo) (echo : Option LqIdx) :
    memOf (freeEcho d n echo) = memOf d := by
  unfold freeEcho
  grind -ring -linarith -lia -ac -order [lqFree_mem, memOf]
theorem takeSeq_mem (d : Device) (n : ChanNo) :
    memOf (takeSeq d n) = memOf d := by
  unfold takeSeq
  grind -ring -linarith -lia -ac -order [onJn_mem, memOf]
theorem countLoss_mem (d : Device) (n : ChanNo) (echo : Option LqIdx) :
    memOf (countLoss d n echo) = memOf d := by
  unfold countLoss
  grind -ring -linarith -lia -ac -order [freeEcho_mem, onJn_mem, takeSeq_mem, memOf]
theorem loseFrame_mem (d : Device) (n : ChanNo) (echo : Option LqIdx) :
    memOf (loseFrame d n echo) = memOf d := by
  unfold loseFrame
  grind -ring -linarith -lia -ac -order [countLoss_mem, onJn_mem, memOf]
theorem frameOver_mem (d : Device) (n : ChanNo) :
    memOf (frameOver d n) = memOf d := by
  unfold frameOver
  grind -ring -linarith -lia -ac -order [onJn_mem, memOf]
theorem stage_mem (d : Device) (n : ChanNo) (it : JItem) (len : Nat) :
    memOf (stage d n it len) = memOf d := by
  unfold stage
  grind -ring -linarith -lia -ac -order [countLoss_mem, freeEcho_mem, loseFrame_mem, onJn_mem, memOf]
theorem appendEntry_mem (d : Device) (n : ChanNo) (ws : List Word) (echo : Option LqIdx) :
    memOf (appendEntry d n ws echo) = memOf d := by
  unfold appendEntry
  grind -ring -linarith -lia -ac -order [freeEcho_mem, stage_mem, memOf]
theorem busState_mem (d : Device) (n : ChanNo) (stamp : Raw) (gen : BitVec 4) (code : Nat) (w4 : Word) :
    memOf (busState d n stamp gen code w4) = memOf d := by
  unfold busState
  grind -ring -linarith -lia -ac -order [appendEntry_mem, memOf]
theorem wakeSleep_mem (d : Device) (n : ChanNo) (w2 : Word) (payload : List Word) :
    memOf (wakeSleep d n w2 payload) = memOf d := by
  unfold wakeSleep
  grind -ring -linarith -lia -ac -order [appendEntry_mem, memOf]
theorem stageFrame_mem (d : Device) (n : ChanNo) (ws : List Word) (fin : Bool) (echo : Option LqIdx) :
    memOf (stageFrame d n ws fin echo) = memOf d := by
  unfold stageFrame
  grind -ring -linarith -lia -ac -order [frameOver_mem, freeEcho_mem, onJn_mem, stage_mem, memOf, foldl_mem, forChans_mem]
theorem releaseFrame_mem (d : Device) (n : ChanNo) :
    memOf (releaseFrame d n) = memOf d := by
  unfold releaseFrame
  grind -ring -linarith -lia -ac -order [frameOver_mem, onJn_mem, memOf]
theorem mirrorPos_mem (d : Device) (n : ChanNo) (op : JposOp) :
    memOf (mirrorPos d n op) = memOf d := by
  unfold mirrorPos
  grind -ring -linarith -lia -ac -order [mirrorChan_mem, memOf]
theorem popWord_mem (d : Device) (n : ChanNo) :
    memOf (popWord d n).2 = memOf d := by
  unfold popWord
  grind -ring -linarith -lia -ac -order [checkedRead_mem, eventNow_mem, mirrorPos_mem, onJn_mem, memOf]
theorem popMany_mem (d : Device) (n : ChanNo) (count : Nat) :
    memOf (popMany d n count).2 = memOf d := by
  induction count generalizing d with
  | zero => rfl
  | succ m ih => unfold popMany; grind -ring -linarith -lia -ac -order [popWord_mem]
theorem setMarkOp_mem (d : Device) (n : ChanNo) :
    memOf (setMarkOp d n) = memOf d := by
  unfold setMarkOp
  grind -ring -linarith -lia -ac -order [mirrorPos_mem, onJn_mem, memOf]
theorem rewindOp_mem (d : Device) (n : ChanNo) :
    memOf (rewindOp d n) = memOf d := by
  unfold rewindOp
  grind -ring -linarith -lia -ac -order [mirrorPos_mem, onJn_mem, memOf]
theorem clearMarkOp_mem (d : Device) (n : ChanNo) :
    memOf (clearMarkOp d n) = memOf d := by
  unfold clearMarkOp
  grind -ring -linarith -lia -ac -order [mirrorPos_mem, onJn_mem, memOf]
theorem flushOp_mem (d : Device) (n : ChanNo) :
    memOf (flushOp d n) = memOf d := by
  unfold flushOp
  grind -ring -linarith -lia -ac -order [mirrorPos_mem, onJn_mem, memOf]
theorem writeJctrl_mem (d : Device) (n : ChanNo) (v : Word) :
    memOf (writeJctrl d n v) = memOf d := by
  unfold writeJctrl
  grind -ring -linarith -lia -ac -order [clearMarkOp_mem, flushOp_mem, mirrorPos_mem, onJn_mem, rewindOp_mem, setMarkOp_mem, memOf]
theorem errorEntry_mem (d : Device) (n : ChanNo) (kind : Nat) (field : BusField) (asTx : Bool) (idx : Nat) (stamp : Raw) (gen : BitVec 4) :
    memOf (errorEntry d n kind field asTx idx stamp gen) = memOf d := by
  unfold errorEntry
  grind -ring -linarith -lia -ac -order [appendEntry_mem, onFe_mem, memOf]
theorem fcEntry_mem (d : Device) (n : ChanNo) (code : Nat) (stamp : Raw) (gen : BitVec 4) :
    memOf (fcEntry d n code stamp gen) = memOf d := by
  unfold fcEntry
  grind -ring -linarith -lia -ac -order [busState_mem, memOf]
theorem fcSet_mem (d : Device) (n : ChanNo) (tec : BitVec 9) (rcv : BitVec 8) (st : FcSt) :
    memOf (fcSet d n tec rcv st) = memOf d := by
  unfold fcSet
  grind -ring -linarith -lia -ac -order [onFe_mem, memOf]
theorem fcEvents_mem (d : Device) (n : ChanNo) (old : FrameEngine) (stamp : Raw) (gen : BitVec 4) :
    memOf (fcEvents d n old stamp gen) = memOf d := by
  unfold fcEvents
  grind -ring -linarith -lia -ac -order [event_mem, fcEntry_mem, mirrorChan_mem, onFe_mem, memOf]
theorem fcChange_mem (d : Device) (n : ChanNo) (tec : BitVec 9) (rcv : BitVec 8) (st : FcSt) (stamp : Raw) (gen : BitVec 4) :
    memOf (fcChange d n tec rcv st stamp gen) = memOf d := by
  unfold fcChange
  grind -ring -linarith -lia -ac -order [fcEvents_mem, fcSet_mem, memOf]
theorem lqFetch_mem (d : Device) (n : ChanNo) (i : LqIdx) (len : Nat) :
    memOf (lqFetch d n i len) = memOf d := by
  unfold lqFetch
  grind -ring -linarith -lia -ac -order [memCount_mem, memOf]
theorem lqUnsent_mem (d : Device) (n : ChanNo) (i : LqIdx) (code : Nat) :
    memOf (lqUnsent d n i code) = memOf d := by
  unfold lqUnsent
  grind -ring -linarith -lia -ac -order [appendEntry_mem, lqFree_mem, lqKeep_mem, memOf]
theorem lqWithdraw_mem (d : Device) (n : ChanNo) (i : LqIdx) (code : Nat) :
    memOf (lqWithdraw d n i code) = memOf d := by
  unfold lqWithdraw
  grind -ring -linarith -lia -ac -order [lqFree_mem, lqUnsent_mem, memOf]
theorem cancelEntry_mem (d : Device) (n : ChanNo) (i : LqIdx) :
    memOf (cancelEntry d n i) = memOf d := by
  unfold cancelEntry
  grind -ring -linarith -lia -ac -order [lqPut_mem, lqWithdraw_mem, onLq_mem, memOf]
theorem mirrorBallot_mem (d : Device) (n : ChanNo) (order : Bool) :
    memOf (mirrorBallot d n order) = memOf d := by
  unfold mirrorBallot
  grind -ring -linarith -lia -ac -order [mirrorChan_mem, memOf]
theorem disarm_mem (d : Device) (n : ChanNo) :
    memOf (disarm d n) = memOf d := by
  unfold disarm
  grind -ring -linarith -lia -ac -order [onWake_mem, memOf]
theorem dropFrame_mem (d : Device) (n : ChanNo) :
    memOf (dropFrame d n) = memOf d := by
  unfold dropFrame
  grind -ring -linarith -lia -ac -order [noWait_mem, onSlp_mem, memOf]
theorem ballotEnd_mem (d : Device) (n : ChanNo) (result : Nat) :
    memOf (ballotEnd d n result) = memOf d := by
  unfold ballotEnd
  grind -ring -linarith -lia -ac -order [cancelEntry_mem, disarm_mem, dropFrame_mem, mirrorBallot_mem, onSlp_mem, wakeSleep_mem, memOf]
theorem queueAbort_mem (d : Device) (n : ChanNo) (i : LqIdx) :
    memOf (queueAbort d n i) = memOf d := by
  unfold queueAbort
  grind -ring -linarith -lia -ac -order [ballotEnd_mem, memOf]
theorem enterReady_mem (d : Device) (n : ChanNo) (i : LqIdx) (e : LqEnt) :
    memOf (enterReady d n i e) = memOf d := by
  unfold enterReady
  grind -ring -linarith -lia -ac -order [lqPut_mem, queueAbort_mem, memOf]
theorem attemptFails_mem (d : Device) (n : ChanNo) (code : Nat) :
    memOf (attemptFails d n code) = memOf d := by
  unfold attemptFails
  grind -ring -linarith -lia -ac -order [enterReady_mem, lqUnsent_mem, memOf]
theorem settleEntry_mem (d : Device) (n : ChanNo) (i : LqIdx) :
    memOf (settleEntry d n i) = memOf d := by
  unfold settleEntry
  grind -ring -linarith -lia -ac -order [enterReady_mem, lqWithdraw_mem, memOf]
theorem settleOnBus_mem (d : Device) (n : ChanNo) :
    memOf (settleOnBus d n) = memOf d := by
  unfold settleOnBus
  grind -ring -linarith -lia -ac -order [settleEntry_mem, memOf]
theorem followedEnds_mem (d : Device) (n : ChanNo) (f : Option Frame) :
    memOf (followedEnds d n f) = memOf d := by
  unfold followedEnds
  grind -ring -linarith -lia -ac -order [lqFree_mem, settleEntry_mem, memOf]
theorem commitEntry_mem (d : Device) (n : ChanNo) (i : LqIdx) :
    memOf (commitEntry d n i).2 = memOf d := by
  unfold commitEntry
  simp only [apply_ite Prod.snd, apply_ite memOf, queueAbort_mem, lqPut_mem, onLq_mem, appendEntry_mem, ite_self]
theorem armWith_mem (d : Device) (n : ChanNo) (pre : Bool) (cal : BitVec 12) :
    memOf (armWith d n pre cal) = memOf d := by
  unfold armWith
  grind -ring -linarith -lia -ac -order [onWake_mem, wakeSleep_mem, memOf]
theorem armOp_mem (d : Device) (n : ChanNo) (pre : Bool) :
    memOf (armOp d n pre) = memOf d := by
  unfold armOp
  grind -ring -linarith -lia -ac -order [armWith_mem, onWake_mem, memOf]
theorem armStrobe_mem (d : Device) (n : ChanNo) :
    memOf (armStrobe d n) = memOf d := by
  unfold armStrobe
  grind -ring -linarith -lia -ac -order [armOp_mem, armWith_mem, onWake_mem, memOf]
theorem receivedBit_mem (d : Device) (n : ChanNo) :
    memOf (receivedBit d n).2 = memOf d := by
  unfold receivedBit
  grind -ring -linarith -lia -ac -order [takeFree_mem, memOf]
theorem driveLost_mem (d : Device) (n : ChanNo) :
    memOf (driveLost d n) = memOf d := by
  unfold driveLost
  grind -ring -linarith -lia -ac -order [attemptFails_mem, errorEntry_mem, onFe_mem, releaseFrame_mem, memOf]
theorem rxLost_mem (d : Device) (n : ChanNo) :
    memOf (rxLost d n) = memOf d := by
  unfold rxLost
  grind -ring -linarith -lia -ac -order [errorEntry_mem, onFe_mem, receivedBit_mem, releaseFrame_mem, memOf]
theorem afterMode_mem (d : Device) (n : ChanNo) (m0 : Mode) :
    memOf (afterMode d n m0) = memOf d := by
  unfold afterMode
  grind -ring -linarith -lia -ac -order [ballotEnd_mem, driveLost_mem, followedEnds_mem, onFe_mem, rxLost_mem, memOf]
theorem setToken_mem (d : Device) (n : ChanNo) (v : Bool) :
    memOf (setToken d n v) = memOf d := by
  unfold setToken toSentinel
  grind -ring -linarith -lia -ac -order [afterMode_mem, onLine_mem, memOf]
theorem lineEntry_mem (d : Device) (n : ChanNo) (old new : LineSt) (cause : Nat) :
    memOf (lineEntry d n old new cause) = memOf d := by
  unfold lineEntry
  grind -ring -linarith -lia -ac -order [busState_mem, memOf]
theorem lineMove_mem (d : Device) (n : ChanNo) (new req : LineSt) (cause : Nat) :
    memOf (lineMove d n new req cause) = memOf d := by
  unfold lineMove
  grind -ring -linarith -lia -ac -order [afterMode_mem, armOp_mem, ballotEnd_mem, disarm_mem, lineEntry_mem, onLine_mem, onWake_mem, memOf]
theorem lineRequest_mem (d : Device) (n : ChanNo) (req : LineSt) :
    memOf (lineRequest d n req) = memOf d := by
  unfold lineRequest toSentinel
  grind -ring -linarith -lia -ac -order [ballotEnd_mem, lineMove_mem, onLine_mem, setToken_mem, memOf]
theorem termWrite_mem (d : Device) (n : ChanNo) (v : Bool) :
    memOf (termWrite d n v) = memOf d := by
  unfold termWrite toSentinel
  grind -ring -linarith -lia -ac -order [onLine_mem, memOf]
theorem localWakeWrite_mem (d : Device) (n : ChanNo) (v : Bool) :
    memOf (localWakeWrite d n v) = memOf d := by
  unfold localWakeWrite toSentinel
  grind -ring -linarith -lia -ac -order [onLine_mem, memOf]
theorem wakeSentinel_mem (d : Device) (k : DieNo) :
    memOf (wakeSentinel d k) = memOf d := by
  unfold wakeSentinel
  grind -ring -linarith -lia -ac -order [onSent_mem, memOf]
theorem inhCheck_mem (d : Device) (k : DieNo) :
    memOf (inhCheck d k) = memOf d := by
  unfold inhCheck
  grind -ring -linarith -lia -ac -order [onSent_mem, memOf]
theorem offlineWake_mem (d : Device) (n : ChanNo) (source : Nat) (tick : Nat) :
    memOf (offlineWake d n source tick) = memOf d := by
  unfold offlineWake
  grind -ring -linarith -lia -ac -order [onWake_mem, memOf]
theorem wakeChannel_mem (d : Device) (n : ChanNo) (source cause tick : Nat) (payload : List Word) :
    memOf (wakeChannel d n source cause tick payload) = memOf d := by
  unfold wakeChannel
  grind -ring -linarith -lia -ac -order [ballotEnd_mem, lineEntry_mem, lineMove_mem, offlineWake_mem, onWake_mem, wakeSentinel_mem, wakeSleep_mem, memOf]
theorem advanceEpochs_mem (d : Device) :
    memOf (advanceEpochs d) = memOf d := by
  unfold advanceEpochs
  grind -ring -linarith -lia -ac -order [memOf]
theorem peerAdvance_mem (d : Device) :
    memOf (peerAdvance d) = memOf d := by
  unfold peerAdvance
  grind -ring -linarith -lia -ac -order [onMap_mem, memOf]
theorem mirrorEpoch_mem (d : Device) :
    memOf (mirrorEpoch d) = memOf d := by
  unfold mirrorEpoch
  grind -ring -linarith -lia -ac -order [mirrorActive_mem, memOf]
theorem routeWrite_mem (d : Device) (p : Nat) (act sh : BitVec 10) (pe ae se : BitVec 8) (castled : BitVec 64) :
    memOf (routeWrite d p act sh pe ae se castled) = memOf d := by
  unfold routeWrite
  grind -ring -linarith -lia -ac -order [onMap_mem, memOf]
theorem sendRoute_mem (d : Device) (cause : Nat) (peerEpoch : BitVec 8) :
    memOf (sendRoute d cause peerEpoch) = memOf d := by
  unfold sendRoute
  grind -ring -linarith -lia -ac -order [routeWrite_mem, sendBroadcast_mem, memOf]
theorem castlingEvent_mem (d : Device) (unit kind : Nat) (holdsNow : Bool) :
    memOf (castlingEvent d unit kind holdsNow) = memOf d := by
  unfold castlingEvent
  grind -ring -linarith -lia -ac -order [eventNow_mem, memOf]
theorem splitEvent_mem (d : Device) :
    memOf (splitEvent d) = memOf d := by
  unfold splitEvent
  grind -ring -linarith -lia -ac -order [eventNow_mem, memOf]
theorem takeChan_mem (d : Device) (n : ChanNo) :
    memOf (takeChan d n) = memOf d := by
  unfold takeChan
  grind -ring -linarith -lia -ac -order [lineRequest_mem, setToken_mem, memOf]
theorem settleClosing_mem (d : Device) (n : ChanNo) (which : LqEnt → Bool) :
    memOf (settleClosing d n which) = memOf d := by
  unfold settleClosing
  grind -ring -linarith -lia -ac -order [mirrorChan_mem, onLq_mem, foldl_mem, forChans_mem, memOf]
theorem giveChan_mem (d : Device) (n : ChanNo) :
    memOf (giveChan d n) = memOf d := by
  unfold giveChan
  grind -ring -linarith -lia -ac -order [lineRequest_mem, setToken_mem, settleClosing_mem, memOf]
theorem recordMove_mem (d : Device) (n : ChanNo) (here : Bool) :
    memOf (recordMove d n here) = memOf d := by
  unfold recordMove
  grind -ring -linarith -lia -ac -order [memOf]
theorem witness_mem (d : Device) (n : ChanNo) (f : Frame) :
    memOf (witness d n f) = memOf d := by
  unfold witness
  grind -ring -linarith -lia -ac -order [lqFree_mem, memOf]
theorem endBallot_mem (d : Device) (n : ChanNo) :
    memOf (endBallot d n) = memOf d := by
  unfold endBallot
  grind -ring -linarith -lia -ac -order [ballotEnd_mem, memOf]
theorem promote_mem (d : Device) (settle : Bool) (cause kind : Nat) (partnerEpoch : BitVec 8) :
    memOf (promote d settle cause kind partnerEpoch) = memOf d := by
  unfold promote
  grind -ring -linarith -lia -ac -order [advanceEpochs_mem, castlingEvent_mem, endBallot_mem, mirrorEpoch_mem, sendRoute_mem, settleOnBus_mem, takeChan_mem, foldl_mem, forChans_mem, memOf]
theorem demote_mem (d : Device) :
    memOf (demote d) = memOf d := by
  unfold demote
  grind -ring -linarith -lia -ac -order [memOf, foldl_mem, forChans_mem]
theorem contextSent_mem (d : Device) (m : MirMsg) :
    memOf (contextSent d m) = memOf d := by
  unfold contextSent
  grind -ring -linarith -lia -ac -order [onEng_mem, memOf]
theorem dropMirror_mem (d : Device) :
    memOf (dropMirror d) = memOf d := by
  unfold dropMirror
  grind -ring -linarith -lia -ac -order [contextSent_mem, foldl_mem, forChans_mem, memOf]
theorem fence_mem (d : Device) :
    memOf (fence d) = memOf d := by
  unfold fence
  grind -ring -linarith -lia -ac -order [dropMirror_mem, giveChan_mem, setToken_mem, foldl_mem, forChans_mem, memOf]
theorem enterState_mem (d : Device) (st : PairSt) :
    memOf (enterState d st) = memOf d := by
  unfold enterState
  grind -ring -linarith -lia -ac -order [memOf]
theorem holdAll_mem (d : Device) :
    memOf (holdAll d) = memOf d := by
  unfold holdAll
  grind -ring -linarith -lia -ac -order [takeChan_mem, memOf, foldl_mem, forChans_mem]
theorem abandon_mem (d : Device) :
    memOf (abandon d) = memOf d := by
  unfold abandon
  grind -ring -linarith -lia -ac -order [dropMirror_mem, holdAll_mem, recordMove_mem, takeChan_mem, foldl_mem, forChans_mem, memOf]
theorem loseP_mem (d : Device) :
    memOf (loseP d) = memOf d := by
  unfold loseP
  grind -ring -linarith -lia -ac -order [abandon_mem, castlingEvent_mem, enterState_mem, holdAll_mem, memOf]
theorem checkFailed_mem (d : Device) :
    memOf (checkFailed d) = memOf d := by
  unfold checkFailed
  grind -ring -linarith -lia -ac -order [dropMirror_mem, enterState_mem, loseP_mem, promote_mem, memOf]
theorem gaveAll_mem (d : Device) :
    memOf (gaveAll d) = memOf d := by
  unfold gaveAll
  grind -ring -linarith -lia -ac -order [enterState_mem, mirrorQueue_mem, memOf]
theorem goneOnBusOff_mem (d : Device) (was : Bool) :
    memOf (goneOnBusOff d was) = memOf d := by
  unfold goneOnBusOff
  grind -ring -linarith -lia -ac -order [gaveAll_mem, mirrorQueue_mem, memOf]
theorem castleOnBusOff_mem (d : Device) (n : ChanNo) :
    memOf (castleOnBusOff d n) = memOf d := by
  unfold castleOnBusOff
  grind -ring -linarith -lia -ac -order [advanceEpochs_mem, castlingEvent_mem, giveChan_mem, goneOnBusOff_mem, mirrorEpoch_mem, mirrorQueue_mem, peerAdvance_mem, recordMove_mem, memOf]
theorem refSelect_mem (d : Device) :
    memOf (refSelect d) = memOf d := by
  unfold refSelect
  grind -ring -linarith -lia -ac -order [memOf]
theorem putLane_mem (d : Device) (s : Side) (c : RCell) :
    memOf (putLane d s c) = memOf d := by
  unfold putLane
  grind -ring -linarith -lia -ac -order [memOf]
theorem forward_mem (d : Device) (at_ : Side) (c : RCell) :
    memOf (forward d at_ c) = memOf d := by
  unfold forward
  grind -ring -linarith -lia -ac -order [putLane_mem, memOf]
theorem arrive_mem (d : Device) (at_ : Port) (c : RCell) :
    memOf (arrive d at_ c).2 = memOf d := by
  unfold arrive
  grind -ring -linarith -lia -ac -order [onPort_mem, memOf]
theorem queueSide_mem (d : Device) (q : ReqNo) (s : Side) (c : RCell) :
    memOf (queueSide d q s c) = memOf d := by
  unfold queueSide
  grind -ring -linarith -lia -ac -order [memOf]
theorem sendRequest_mem (d : Device) (why : ReqWhy) (pairSpace : Bool) (num off : Nat) (ctype : BitVec 6) (payload : List Byte) (got : List Word) :
    memOf (sendRequest d why pairSpace num off ctype payload got).2 = memOf d := by
  unfold sendRequest
  grind -ring -linarith -lia -ac -order [newCell_mem, queueOut_mem, memOf]
theorem readPartner_mem (d : Device) (why : ReqWhy) (off : Nat) (got : List Word) :
    memOf (readPartner d why off got).2 = memOf d := by
  unfold readPartner
  grind -ring -linarith -lia -ac -order [sendRequest_mem, memOf]
theorem sendTopo_mem (d : Device) :
    memOf (sendTopo d) = memOf d := by
  unfold sendTopo
  grind -ring -linarith -lia -ac -order [sendBroadcast_mem, memOf]
theorem sendOwnerReset_mem (d : Device) :
    memOf (sendOwnerReset d) = memOf d := by
  unfold sendOwnerReset
  grind -ring -linarith -lia -ac -order [sendBroadcast_mem, memOf]
theorem enterJoining_mem (d : Device) :
    memOf (enterJoining d) = memOf d := by
  unfold enterJoining
  grind -ring -linarith -lia -ac -order [sendOwnerReset_mem, memOf]
theorem portUp_mem (d : Device) (s : Side) :
    memOf (portUp d s) = memOf d := by
  unfold portUp
  grind -ring -linarith -lia -ac -order [enterJoining_mem, onPort_mem, refSelect_mem, memOf]
theorem startTraining_mem (d : Device) (p : Port) :
    memOf (startTraining d p) = memOf d := by
  unfold startTraining
  grind -ring -linarith -lia -ac -order [onPort_mem, refSelect_mem, memOf]
theorem enterCollision_mem (d : Device) :
    memOf (enterCollision d) = memOf d := by
  unfold enterCollision
  grind -ring -linarith -lia -ac -order [eventNow_mem, memOf]
theorem tokenCheck_mem (d : Device) (c : RCell) :
    memOf (tokenCheck d c) = memOf d := by
  unfold tokenCheck
  grind -ring -linarith -lia -ac -order [enterCollision_mem, memOf]
theorem mapAll_mem (d : Device) (f : MapEnt → MapEnt) :
    memOf (mapAll d f) = memOf d := by
  unfold mapAll
  grind -ring -linarith -lia -ac -order [memOf, foldl_mem, forChans_mem]
theorem checkAgain_mem (d : Device) :
    memOf (checkAgain d) = memOf d := by
  unfold checkAgain
  grind -ring -linarith -lia -ac -order [checkFailed_mem, readPartner_mem, memOf]
theorem topologyLearnt_mem (d : Device) :
    memOf (topologyLearnt d) = memOf d := by
  unfold topologyLearnt
  grind -ring -linarith -lia -ac -order [memOf]
theorem learnTopo_mem (d : Device) (at_ : Side) (c : RCell) :
    memOf (learnTopo d at_ c) = memOf d := by
  unfold learnTopo
  grind -ring -linarith -lia -ac -order [checkAgain_mem, mapAll_mem, onMap_mem, refSelect_mem, topologyLearnt_mem, memOf]
theorem topologyEvent_mem (d : Device) :
    memOf (topologyEvent d) = memOf d := by
  unfold topologyEvent
  grind -ring -linarith -lia -ac -order [eventNow_mem, memOf]
theorem sendSpanDown_mem (d : Device) (s : Side) :
    memOf (sendSpanDown d s) = memOf d := by
  unfold sendSpanDown
  grind -ring -linarith -lia -ac -order [newCell_mem, onPort_mem, memOf]
theorem spanTick_mem (d : Device) (s : Side) :
    memOf (spanTick d s) = memOf d := by
  unfold spanTick
  grind -ring -linarith -lia -ac -order [newCell_mem, onPort_mem, memOf]
theorem wrapSide_mem (d : Device) (s : Side) :
    memOf (wrapSide d s) = memOf d := by
  unfold wrapSide
  grind -ring -linarith -lia -ac -order [checkAgain_mem, sendSpanDown_mem, sendTopo_mem, topologyEvent_mem, memOf]
theorem unwrapSide_mem (d : Device) (s : Side) :
    memOf (unwrapSide d s) = memOf d := by
  unfold unwrapSide
  grind -ring -linarith -lia -ac -order [checkAgain_mem, refSelect_mem, sendTopo_mem, topologyLearnt_mem, memOf]
theorem startResync_mem (d : Device) :
    memOf (startResync d) = memOf d := by
  unfold startResync
  grind -ring -linarith -lia -ac -order [memOf]
theorem wrapFailed_mem (d : Device) (s : Side) :
    memOf (wrapFailed d s) = memOf d := by
  unfold wrapFailed
  grind -ring -linarith -lia -ac -order [refSelect_mem, wrapSide_mem, memOf]
theorem failSide_mem (d : Device) (s : Side) :
    memOf (failSide d s) = memOf d := by
  unfold failSide
  grind -ring -linarith -lia -ac -order [refSelect_mem, sendTopo_mem, topologyEvent_mem, wrapFailed_mem, memOf]
theorem mirrorDown_mem (d : Device) :
    memOf (mirrorDown d) = memOf d := by
  unfold mirrorDown
  grind -ring -linarith -lia -ac -order [abandon_mem, startResync_mem, memOf]
theorem linkFail_mem (d : Device) (p : Port) (show_ : LanePort → LanePort) :
    memOf (linkFail d p show_) = memOf d := by
  unfold linkFail
  grind -ring -linarith -lia -ac -order [failSide_mem, mirrorDown_mem, onPort_mem, refSelect_mem, memOf]
theorem returnCell_mem (d : Device) (q : ReqNo) (c : RCell) :
    memOf (returnCell d q c) = memOf d := by
  unfold returnCell
  grind -ring -linarith -lia -ac -order [queueOut_mem, memOf]
theorem finishReq_mem (d : Device) (seq : BitVec 16) (status : Nat) (data : List Word) :
    memOf (finishReq d seq status data) = memOf d := by
  unfold finishReq
  grind -ring -linarith -lia -ac -order [memOf]
theorem lockPut_mem (d : Device) (i : LockNo) (l : Lock) :
    memOf (lockPut d i l) = memOf d := by
  unfold lockPut
  grind -ring -linarith -lia -ac -order [mirrorActive_mem, memOf]
theorem lockEvent_mem (d : Device) (i : LockNo) (old : Lock) (cause : Nat) :
    memOf (lockEvent d i old cause) = memOf d := by
  unfold lockEvent
  grind -ring -linarith -lia -ac -order [eventNow_mem, memOf]
theorem breakLock_mem (d : Device) (i : LockNo) (cause : Nat) :
    memOf (breakLock d i cause) = memOf d := by
  unfold breakLock
  grind -ring -linarith -lia -ac -order [lockEvent_mem, lockPut_mem, memOf]
theorem leaseDue_mem (d : Device) (i : LockNo) :
    memOf (leaseDue d i) = memOf d := by
  unfold leaseDue
  grind -ring -linarith -lia -ac -order [breakLock_mem, memOf]
theorem lockOp_mem (d : Device) (i : LockNo) (op : Nat) (lease : BitVec 16) (who : BitVec 10) :
    memOf (lockOp d i op lease who).2 = memOf d := by
  unfold lockOp
  grind -ring -linarith -lia -ac -order [breakLock_mem, leaseDue_mem, lockPut_mem, memOf]
theorem localLock_mem (d : Device) (src : Src) (i : LockNo) (op : Nat) (lease : BitVec 16) :
    memOf (localLock d src i op lease) = memOf d := by
  unfold localLock
  grind -ring -linarith -lia -ac -order [glbErr_mem, lockOp_mem, memOf]
theorem ownerGone_mem (d : Device) (s : BitVec 10) :
    memOf (ownerGone d s) = memOf d := by
  unfold ownerGone
  grind -ring -linarith -lia -ac -order [breakLock_mem, memOf, foldl_mem, forChans_mem]
theorem stageLow_mem (d : Device) (off : Nat) (v : Word) :
    memOf (stageLow d off v) = memOf d := by
  unfold stageLow
  grind -ring -linarith -lia -ac -order [memOf]
theorem answerWord_mem (d : Device) (w : Word) :
    memOf (answerWord d w) = memOf d := by
  unfold answerWord
  grind -ring -linarith -lia -ac -order [memOf]
theorem nowRead_mem (d : Device) :
    memOf (nowRead d).2 = memOf d := by
  unfold nowRead
  grind -ring -linarith -lia -ac -order [memOf]
theorem offsRead_mem (d : Device) :
    memOf (offsRead d).2 = memOf d := by
  unfold offsRead
  grind -ring -linarith -lia -ac -order [memOf]
theorem ownerRefused_mem (d : Device) :
    memOf (ownerRefused d) = memOf d := by
  unfold ownerRefused
  grind -ring -linarith -lia -ac -order [memOf]
theorem offsIncCommit_mem (d : Device) (src : Src) (hi : Word) :
    memOf (offsIncCommit d src hi) = memOf d := by
  unfold offsIncCommit
  grind -ring -linarith -lia -ac -order [ownerRefused_mem, memOf]
theorem rateIncCommit_mem (d : Device) (src : Src) (hi : Word) :
    memOf (rateIncCommit d src hi) = memOf d := by
  unfold rateIncCommit
  grind -ring -linarith -lia -ac -order [ownerRefused_mem, memOf]
theorem newGeneration_mem (d : Device) (g : BitVec 4) (b : Raw) (rate : BitVec 48) (offset : BitVec 80) :
    memOf (newGeneration d g b rate offset) = memOf d := by
  unfold newGeneration
  grind -ring -linarith -lia -ac -order [memOf]
theorem acquireTime_mem (d : Device) :
    memOf (acquireTime d) = memOf d := by
  unfold acquireTime
  grind -ring -linarith -lia -ac -order [memOf]
theorem applyIncrement_mem (d : Device) (i : Increment) :
    memOf (applyIncrement d i) = memOf d := by
  unfold applyIncrement
  grind -ring -linarith -lia -ac -order [acquireTime_mem, mirrorActive_mem, newGeneration_mem, memOf]
theorem tEdge_mem (d : Device) :
    memOf (tEdge d) = memOf d := by
  unfold tEdge
  grind -ring -linarith -lia -ac -order [applyIncrement_mem, spanTick_mem, memOf]
theorem convBegin_mem (d : Device) (hi : Word) :
    memOf (convBegin d hi) = memOf d := by
  unfold convBegin
  grind -ring -linarith -lia -ac -order [memOf]
theorem convWrite_mem (d : Device) (w : ConvWrite) :
    memOf (convWrite d w) = memOf d := by
  unfold convWrite
  grind -ring -linarith -lia -ac -order [convBegin_mem, stageLow_mem, memOf]
theorem convPut_mem (d : Device) (w : ConvWrite) :
    memOf (convPut d w) = memOf d := by
  unfold convPut
  grind -ring -linarith -lia -ac -order [convWrite_mem, memOf]
theorem convDeliver_mem (d : Device) :
    memOf (convDeliver d) = memOf d := by
  unfold convDeliver
  grind -ring -linarith -lia -ac -order [memOf]
theorem convHeldRun_mem (d : Device) (ws : List ConvWrite) :
    memOf (convHeldRun d ws) = memOf d := by
  induction ws generalizing d with
  | nil => unfold convHeldRun; grind -ring -linarith -lia -ac -order [convWrite_mem, memOf]
  | cons x r ih => unfold convHeldRun; grind -ring -linarith -lia -ac -order [convWrite_mem, memOf]
theorem convComplete_mem (d : Device) :
    memOf (convComplete d) = memOf d := by
  unfold convComplete
  grind -ring -linarith -lia -ac -order [convDeliver_mem, convHeldRun_mem, memOf]
theorem setLinkDelay_mem (d : Device) (s : Side) (v : BitVec 32) :
    memOf (setLinkDelay d s v) = memOf d := by
  unfold setLinkDelay
  grind -ring -linarith -lia -ac -order [memOf]
theorem setPdReq_mem (d : Device) (p : Port) (r : Option (BitVec 16 × Raw)) :
    memOf (setPdReq d p r) = memOf d := by
  unfold setPdReq
  grind -ring -linarith -lia -ac -order [memOf]
theorem fitDelay_mem (d : Device) (v : Int) :
    memOf (fitDelay d v).2 = memOf d := by
  unfold fitDelay
  grind -ring -linarith -lia -ac -order [takeFree_mem, memOf]
theorem mirrorCell_mem (d : Device) (payload : List Byte) :
    memOf (mirrorCell d payload).2 = memOf d := by
  unfold mirrorCell
  grind -ring -linarith -lia -ac -order [memOf]
theorem mirSeen_mem (d : Device) (q : BitVec 16) :
    memOf (mirSeen d q) = memOf d := by
  unfold mirSeen
  grind -ring -linarith -lia -ac -order [startResync_mem, memOf]
theorem arriveAt_mem (d : Device) (p : Port) (c : RCell) :
    memOf (arriveAt d p c).2 = memOf d := by
  unfold arriveAt
  grind -ring -linarith -lia -ac -order [arrive_mem, mirSeen_mem, startResync_mem, memOf]
theorem forwardBeacon_mem (d : Device) (s : Side) (c : RCell) (rate : BitVec 48) :
    memOf (forwardBeacon d s c rate) = memOf d := by
  unfold forwardBeacon
  grind -ring -linarith -lia -ac -order [putLane_mem, memOf]
theorem skewUpdate_mem (d : Device) :
    memOf (skewUpdate d) = memOf d := by
  unfold skewUpdate
  grind -ring -linarith -lia -ac -order [memOf]
theorem servoEstimate_mem (d : Device) :
    memOf (servoEstimate d) = memOf d := by
  unfold servoEstimate
  grind -ring -linarith -lia -ac -order [memOf]
theorem masterHeard_mem (d : Device) :
    memOf (masterHeard d) = memOf d := by
  unfold masterHeard
  grind -ring -linarith -lia -ac -order [refSelect_mem, memOf]
theorem takeBeacon_mem (d : Device) (s : Side) (c : RCell) (a : Int) :
    memOf (takeBeacon d s c a) = memOf d := by
  unfold takeBeacon
  grind -ring -linarith -lia -ac -order [acquireTime_mem, masterHeard_mem, servoEstimate_mem, skewUpdate_mem, memOf]
theorem assume_mem (d : Device) (active : Bool) (st : PairSt) :
    memOf (assume d active st) = memOf d := by
  unfold assume
  grind -ring -linarith -lia -ac -order [enterState_mem, holdAll_mem, memOf]
theorem formStep_mem (d : Device) :
    memOf (formStep d) = memOf d := by
  unfold formStep
  grind -ring -linarith -lia -ac -order [readPartner_mem, memOf]
theorem formAnswer_mem (d : Device) (stat role : Word) :
    memOf (formAnswer d stat role) = memOf d := by
  unfold formAnswer
  grind -ring -linarith -lia -ac -order [assume_mem, memOf]
theorem formAlone_mem (d : Device) :
    memOf (formAlone d) = memOf d := by
  unfold formAlone
  grind -ring -linarith -lia -ac -order [assume_mem, memOf]
theorem stepIn_mem (d : Device) :
    memOf (stepIn d) = memOf d := by
  unfold stepIn
  grind -ring -linarith -lia -ac -order [holdAll_mem, memOf]
theorem queueResync_mem (d : Device) :
    memOf (queueResync d) = memOf d := by
  unfold queueResync
  grind -ring -linarith -lia -ac -order [awaitAll_mem, useAll_mem, foldl_mem, forChans_mem, memOf]
theorem enterSplit_mem (d : Device) :
    memOf (enterSplit d) = memOf d := by
  unfold enterSplit
  grind -ring -linarith -lia -ac -order [abandon_mem, enterState_mem, splitEvent_mem, memOf]
theorem ringCheck_mem (d : Device) :
    memOf (ringCheck d) = memOf d := by
  unfold ringCheck
  grind -ring -linarith -lia -ac -order [checkFailed_mem, readPartner_mem, memOf]
theorem checkKick_mem (d : Device) :
    memOf (checkKick d) = memOf d := by
  unfold checkKick
  grind -ring -linarith -lia -ac -order [ringCheck_mem, memOf]
theorem checkAnswered_mem (d : Device) :
    memOf (checkAnswered d) = memOf d := by
  unfold checkAnswered
  grind -ring -linarith -lia -ac -order [enterSplit_mem, memOf]
theorem heartbeatLost_mem (d : Device) :
    memOf (heartbeatLost d) = memOf d := by
  unfold heartbeatLost
  grind -ring -linarith -lia -ac -order [castlingEvent_mem, enterState_mem, fence_mem, ringCheck_mem, memOf]
theorem giveAll_mem (d : Device) (why : TokenWhy) :
    memOf (giveAll d why) = memOf d := by
  unfold giveAll
  grind -ring -linarith -lia -ac -order [memOf]
theorem movedOut_mem (d : Device) (n : ChanNo) :
    memOf (movedOut d n) = memOf d := by
  unfold movedOut
  grind -ring -linarith -lia -ac -order [advanceEpochs_mem, castlingEvent_mem, mirrorEpoch_mem, mirrorQueue_mem, peerAdvance_mem, recordMove_mem, memOf]
theorem tokenRelease_mem (d : Device) (n : ChanNo) :
    memOf (tokenRelease d n) = memOf d := by
  unfold tokenRelease
  grind -ring -linarith -lia -ac -order [gaveAll_mem, giveChan_mem, mirrorQueue_mem, movedOut_mem, memOf]
theorem splitAnswer_mem (d : Device) (stat role : Word) :
    memOf (splitAnswer d stat role) = memOf d := by
  unfold splitAnswer
  grind -ring -linarith -lia -ac -order [gaveAll_mem, giveAll_mem, memOf]
theorem pairResult_mem (d : Device) (code : Nat) (whole : Bool) (n : Option ChanNo) :
    memOf (pairResult d code whole n) = memOf d := by
  unfold pairResult
  grind -ring -linarith -lia -ac -order [memOf]
theorem tellCastling_mem (d : Device) (why : TokenWhy) :
    memOf (tellCastling d why) = memOf d := by
  unfold tellCastling
  grind -ring -linarith -lia -ac -order [mirrorQueue_mem, memOf]
theorem castleWhole_mem (d : Device) :
    memOf (castleWhole d) = memOf d := by
  unfold castleWhole
  grind -ring -linarith -lia -ac -order [gaveAll_mem, giveAll_mem, tellCastling_mem, memOf]
theorem castleChannel_mem (d : Device) (n : ChanNo) :
    memOf (castleChannel d n) = memOf d := by
  unfold castleChannel
  grind -ring -linarith -lia -ac -order [tellCastling_mem, memOf]
theorem askPartner_mem (d : Device) (q : ReqNo) (m : BitVec 64) :
    memOf (askPartner d q m) = memOf d := by
  unfold askPartner
  grind -ring -linarith -lia -ac -order [mirrorQueue_mem, memOf]
theorem castleOp_mem (d : Device) :
    memOf (castleOp d) = memOf d := by
  unfold castleOp
  grind -ring -linarith -lia -ac -order [askPartner_mem, castleWhole_mem, pairResult_mem, memOf]
theorem channelCastleOp_mem (d : Device) (n : ChanNo) :
    memOf (channelCastleOp d n) = memOf d := by
  unfold channelCastleOp
  grind -ring -linarith -lia -ac -order [askPartner_mem, castleChannel_mem, pairResult_mem, memOf]
theorem askedFor_mem (d : Device) (m : BitVec 64) :
    memOf (askedFor d m) = memOf d := by
  unfold askedFor
  grind -ring -linarith -lia -ac -order [castleChannel_mem, castleWhole_mem, tellCastling_mem, foldl_mem, forChans_mem, memOf]
theorem formByHeartbeat_mem (d : Device) (m : HbMsg) :
    memOf (formByHeartbeat d m) = memOf d := by
  unfold formByHeartbeat
  grind -ring -linarith -lia -ac -order [assume_mem, memOf]
theorem bothActive_mem (d : Device) (m : HbMsg) :
    memOf (bothActive d m) = memOf d := by
  unfold bothActive
  grind -ring -linarith -lia -ac -order [enterState_mem, gaveAll_mem, giveAll_mem, memOf]
theorem bothShadow_mem (d : Device) (m : HbMsg) :
    memOf (bothShadow d m) = memOf d := by
  unfold bothShadow
  grind -ring -linarith -lia -ac -order [advanceEpochs_mem, assume_mem, sendRoute_mem, memOf]
theorem heartbeatArrives_mem (d : Device) (m : HbMsg) :
    memOf (heartbeatArrives d m) = memOf d := by
  unfold heartbeatArrives
  grind -ring -linarith -lia -ac -order [bothActive_mem, bothShadow_mem, enterState_mem, formByHeartbeat_mem, queueResync_mem, memOf]
theorem advanceTo_mem (d : Device) (n : ChanNo) (t : BitVec 80) :
    memOf (advanceTo d n t) = memOf d := by
  unfold advanceTo
  grind -ring -linarith -lia -ac -order [onJn_mem, memOf]
theorem journalMirrored_mem (d : Device) (n : ChanNo) (op : JposOp) (t : BitVec 80) :
    memOf (journalMirrored d n op t) = memOf d := by
  unfold journalMirrored
  grind -ring -linarith -lia -ac -order [advanceTo_mem, onJn_mem, memOf]
theorem timeMirrored_mem (d : Device) (rate : BitVec 48) (offset : BitVec 80) (gen : BitVec 4) (boundary : Raw) :
    memOf (timeMirrored d rate offset gen boundary) = memOf d := by
  unfold timeMirrored
  grind -ring -linarith -lia -ac -order [acquireTime_mem, newGeneration_mem, memOf]
theorem lockMirrored_mem (d : Device) (i : LockNo) (owner : BitVec 10) (held : Bool) (leaseMs : BitVec 16) (leaseEnd : Raw) (broken : Bool) :
    memOf (lockMirrored d i owner held leaseMs leaseEnd broken) = memOf d := by
  unfold lockMirrored
  grind -ring -linarith -lia -ac -order [memOf]
theorem movedIn_mem (d : Device) (n : ChanNo) (kind : Nat) :
    memOf (movedIn d n kind) = memOf d := by
  unfold movedIn
  grind -ring -linarith -lia -ac -order [advanceEpochs_mem, castlingEvent_mem, mirrorEpoch_mem, peerAdvance_mem, recordMove_mem, sendRoute_mem, takeChan_mem, memOf]
theorem partnerBegins_mem (d : Device) :
    memOf (partnerBegins d) = memOf d := by
  unfold partnerBegins
  grind -ring -linarith -lia -ac -order [memOf]
theorem tokenArrives_mem (d : Device) (channels : BitVec 64) (why : TokenWhy) :
    memOf (tokenArrives d channels why) = memOf d := by
  unfold tokenArrives
  grind -ring -linarith -lia -ac -order [askedFor_mem, fcChange_mem, movedIn_mem, partnerBegins_mem, peerAdvance_mem, promote_mem, takeChan_mem, foldl_mem, forChans_mem, memOf]
theorem portOff_mem (d : Device) (p : Port) :
    memOf (portOff d p) = memOf d := by
  unfold portOff
  grind -ring -linarith -lia -ac -order [onPort_mem, memOf]
theorem trainIfPresent_mem (d : Device) (p : Port) :
    memOf (trainIfPresent d p) = memOf d := by
  unfold trainIfPresent
  grind -ring -linarith -lia -ac -order [startTraining_mem, memOf]
theorem ringEnable_mem (d : Device) (v : Bool) :
    memOf (ringEnable d v) = memOf d := by
  unfold ringEnable
  grind -ring -linarith -lia -ac -order [portOff_mem, refSelect_mem, topologyLearnt_mem, trainIfPresent_mem, memOf]
theorem rejoinOp_mem (d : Device) :
    memOf (rejoinOp d) = memOf d := by
  unfold rejoinOp
  grind -ring -linarith -lia -ac -order [enterJoining_mem, memOf]
theorem retrain_mem (d : Device) (p : Port) :
    memOf (retrain d p) = memOf d := by
  unfold retrain
  grind -ring -linarith -lia -ac -order [mirrorDown_mem, startTraining_mem, wrapFailed_mem, memOf]
theorem sendTrain_mem (d : Device) (s : Side) :
    memOf (sendTrain d s) = memOf d := by
  unfold sendTrain
  grind -ring -linarith -lia -ac -order [newCell_mem, putLane_mem, memOf]
theorem topoArrived_mem (d : Device) (at_ : Side) (c : RCell) :
    memOf (topoArrived d at_ c) = memOf d := by
  unfold topoArrived
  grind -ring -linarith -lia -ac -order [formStep_mem, forward_mem, learnTopo_mem, tokenCheck_mem, memOf]
theorem onSfp_mem (d : Device) (p : Port) (f : Sfp → Sfp) :
    memOf (onSfp d p f) = memOf d := by
  unfold onSfp
  grind -ring -linarith -lia -ac -order [memOf]
theorem hostCommit_mem (d : Device) (n : ChanNo) (i : LqIdx) :
    memOf (hostCommit d n i) = memOf d := by
  unfold hostCommit
  grind -ring -linarith -lia -ac -order [commitEntry_mem, onLq_mem, memOf]
theorem launchOp_mem (d : Device) (n : ChanNo) (i : LqIdx) :
    memOf (launchOp d n i) = memOf d := by
  unfold launchOp
  grind -ring -linarith -lia -ac -order [enterReady_mem, memOf]
theorem startCancel_mem (d : Device) (n : ChanNo) (i : Option LqIdx) :
    memOf (startCancel d n i) = memOf d := by
  unfold startCancel
  grind -ring -linarith -lia -ac -order [onLq_mem, memOf]
theorem applyOne_mem (d : Device) (n : ChanNo) (i : LqIdx) :
    memOf (applyOne d n i) = memOf d := by
  unfold applyOne
  grind -ring -linarith -lia -ac -order [ballotEnd_mem, cancelEntry_mem, memOf]
theorem applyCancel_mem (d : Device) (n : ChanNo) :
    memOf (applyCancel d n) = memOf d := by
  unfold applyCancel
  grind -ring -linarith -lia -ac -order [applyOne_mem, onLq_mem, memOf, foldl_mem, forChans_mem]
theorem stagePiece_mem (d : Device) (n : ChanNo) (p : Piece) :
    memOf (stagePiece d n p) = memOf d := by
  unfold stagePiece
  grind -ring -linarith -lia -ac -order [onJn_mem, stage_mem, memOf]
theorem readPop_mem (d : Device) (n : ChanNo) :
    memOf (readPop d n).2 = memOf d := by
  unfold readPop
  grind -ring -linarith -lia -ac -order [latchHi_mem, popWord_mem, memOf]
theorem windowRead_mem (d : Device) (n : ChanNo) (count : Nat) :
    memOf (windowRead d n count) = memOf d := by
  unfold windowRead
  grind -ring -linarith -lia -ac -order [latchHi_mem, popMany_mem, memOf]
theorem pinEdge_mem (d : Device) (p : PinNo) (level : Bool) :
    memOf (pinEdge d p level) = memOf d := by
  unfold pinEdge
  grind -ring -linarith -lia -ac -order [onPin_mem, foldl_mem, forChans_mem, memOf]
theorem pinAsyncStart_mem (d : Device) (p : PinNo) (level : Bool) :
    memOf (pinAsyncStart d p level) = memOf d := by
  unfold pinAsyncStart
  grind -ring -linarith -lia -ac -order [onPin_mem, pinEdge_mem, memOf]
theorem bankBLow_mem (d : Device) :
    memOf (bankBLow d) = memOf d := by
  unfold bankBLow
  grind -ring -linarith -lia -ac -order [onPin_mem, pinAsyncStart_mem, memOf, foldl_mem, forChans_mem]
theorem hostPush_mem (d : Device) (p : PinNo) (w : Word) :
    memOf (hostPush d p w) = memOf d := by
  unfold hostPush
  grind -ring -linarith -lia -ac -order [onPin_mem, memOf]
theorem hostPop_mem (d : Device) (p : PinNo) :
    memOf (hostPop d p).2 = memOf d := by
  unfold hostPop
  grind -ring -linarith -lia -ac -order [latchHi_mem, onPin_mem, memOf]
theorem onCtx_mem (d : Device) (k : EngNo) (c : CtxNo) (f : Ctx → Ctx) :
    memOf (onCtx d k c f) = memOf d := by
  unfold onCtx
  grind -ring -linarith -lia -ac -order [onEng_mem, memOf]
theorem setGreg_mem (d : Device) (k : EngNo) (c : CtxNo) (r : GReg) (v : Word) :
    memOf (setGreg d k c r v) = memOf d := by
  unfold setGreg
  grind -ring -linarith -lia -ac -order [onCtx_mem, memOf]
theorem retireTo_mem (d : Device) (k : EngNo) (c : CtxNo) (target : BitVec 10) :
    memOf (retireTo d k c target) = memOf d := by
  unfold retireTo
  grind -ring -linarith -lia -ac -order [onCtx_mem, memOf]
theorem retire_mem (d : Device) (k : EngNo) (c : CtxNo) :
    memOf (retire d k c) = memOf d := by
  unfold retire
  grind -ring -linarith -lia -ac -order [retireTo_mem, memOf]
theorem stall_mem (d : Device) (k : EngNo) (c : CtxNo) (cause : BitVec 4) (w : CtxWait) :
    memOf (stall d k c cause w) = memOf d := by
  unfold stall
  grind -ring -linarith -lia -ac -order [onCtx_mem, memOf]
theorem ctxFault_mem (d : Device) (k : EngNo) (c : CtxNo) (cause : BitVec 4) :
    memOf (ctxFault d k c cause) = memOf d := by
  unfold ctxFault
  grind -ring -linarith -lia -ac -order [onCtx_mem, onEng_mem, memOf]
theorem setAndRetire_mem (d : Device) (k : EngNo) (c : CtxNo) (rd : GReg) (v : Word) :
    memOf (setAndRetire d k c rd v) = memOf d := by
  unfold setAndRetire
  grind -ring -linarith -lia -ac -order [retire_mem, setGreg_mem, memOf]
theorem branch_mem (d : Device) (k : EngNo) (c : CtxNo) (taken : Bool) (target : BitVec 10) :
    memOf (branch d k c taken target) = memOf d := by
  unfold branch
  grind -ring -linarith -lia -ac -order [retireTo_mem, retire_mem, memOf]
theorem pushCell_mem (d : Device) (p : PinNo) (w : Word) :
    memOf (pushCell d p w) = memOf d := by
  unfold pushCell
  grind -ring -linarith -lia -ac -order [onPin_mem, memOf]
theorem scrRead_mem (d : Device) (k : EngNo) (a : Nat) :
    memOf (scrRead d k a).2 = memOf d := by
  unfold scrRead
  grind -ring -linarith -lia -ac -order [eccCount_mem, takeFree_mem, memOf]
theorem scrWrite_mem (d : Device) (k : EngNo) (a : Nat) (v : Word) :
    memOf (scrWrite d k a v) = memOf d := by
  unfold scrWrite
  grind -ring -linarith -lia -ac -order [onEng_mem, memOf]
theorem scrMany_mem (d : Device) (k : EngNo) (a n : Nat) :
    memOf (scrMany d k a n).2 = memOf d := by
  induction n generalizing d a with
  | zero => rfl
  | succ m ih => unfold scrMany; grind -ring -linarith -lia -ac -order [scrRead_mem]
theorem grantBank_mem (d : Device) (r : ResNo) (x : Requester) :
    memOf (grantBank d r x) = memOf d := by
  unfold grantBank
  grind -ring -linarith -lia -ac -order [askAgain_mem, onArb_mem, memOf]
theorem releaseBank_mem (d : Device) (r : ResNo) :
    memOf (releaseBank d r) = memOf d := by
  unfold releaseBank
  grind -ring -linarith -lia -ac -order [askAgain_mem, grantBank_mem, onArb_mem, memOf]
theorem portAsk_mem (d : Device) (k : EngNo) :
    memOf (portAsk d k) = memOf d := by
  unfold portAsk
  grind -ring -linarith -lia -ac -order [turnTo_mem, memOf]
theorem portIssue_mem (d : Device) (k : EngNo) (c : CtxNo) :
    memOf (portIssue d k c) = memOf d := by
  unfold portIssue
  grind -ring -linarith -lia -ac -order [onEng_mem, portAsk_mem, stall_mem, memOf]
theorem wake_mem (d : Device) (k : EngNo) (c : CtxNo) (w : CtxWait) :
    memOf (wake d k c w) = memOf d := by
  unfold wake
  grind -ring -linarith -lia -ac -order [onCtx_mem, memOf]
theorem commitTurn_mem (d : Device) (k : EngNo) (c : CtxNo) :
    memOf (commitTurn d k c) = memOf d := by
  unfold commitTurn
  grind -ring -linarith -lia -ac -order [awaitAll_mem, commitEntry_mem, useAll_mem, wake_mem, memOf]
theorem startEngine_mem (d : Device) (k : EngNo) :
    memOf (startEngine d k) = memOf d := by
  unfold startEngine
  grind -ring -linarith -lia -ac -order [onEng_mem, onPin_mem, memOf, foldl_mem, forChans_mem]
theorem commitLeft_mem (d : Device) (k : EngNo) (c : CtxNo) :
    memOf (commitLeft d k c) = memOf d := by
  unfold commitLeft
  grind -ring -linarith -lia -ac -order [awaitAll_mem, commitEntry_mem, noWait_mem, useAll_mem, memOf]
theorem abortCtx_mem (d : Device) (k : EngNo) (c : CtxNo) :
    memOf (abortCtx d k c) = memOf d := by
  unfold abortCtx
  grind -ring -linarith -lia -ac -order [commitLeft_mem, wake_mem, memOf]
theorem stopEngine_mem (d : Device) (k : EngNo) :
    memOf (stopEngine d k) = memOf d := by
  unfold stopEngine
  grind -ring -linarith -lia -ac -order [abortCtx_mem, onEng_mem, releaseBank_mem, memOf, foldl_mem, forChans_mem]
theorem engineStopped_mem (d : Device) (k : EngNo) (cells : List PinStop) :
    memOf (engineStopped d k cells) = memOf d := by
  unfold engineStopped
  grind -ring -linarith -lia -ac -order [onEng_mem, onPin_mem, foldl_mem, forChans_mem, memOf]
theorem orderFault_mem (d : Device) (q : ReqNo) (top r : ResNo) :
    memOf (orderFault d q top r) = memOf d := by
  unfold orderFault
  grind -ring -linarith -lia -ac -order [memOf]
theorem portRefused_mem (d : Device) (k : EngNo) :
    memOf (portRefused d k) = memOf d := by
  unfold portRefused
  grind -ring -linarith -lia -ac -order [ctxFault_mem, onEng_mem, memOf]
theorem topoLeft_mem (d : Device) (s : Side) (t : BitVec 6) :
    memOf (topoLeft d s t) = memOf d := by
  unfold topoLeft
  grind -ring -linarith -lia -ac -order [memOf]
theorem topoLeft_ring (d : Device) (s : Side) (t : BitVec 6) : memOf (topoLeft d s t) = memOf d := by
  unfold topoLeft
  grind -ring -linarith -lia -ac -order [memOf]

theorem copyCell_mem (d t : Device) (s : Side) (q : ReqNo) (h : copyCell d s q = some t) : memOf t = memOf d := by
  unfold copyCell at h
  cases s <;> simp only [Option.map_eq_some_iff] at h <;> obtain ⟨x, _, rfl⟩ := h <;> rw [topoLeft_ring] <;> rfl

theorem sendMirror_mem (d t : Device) (q : ReqNo) (h : sendMirror d q = some t) : memOf t = memOf d := by
  unfold sendMirror at h
  split at h
  · cases h
  · simp only [Option.some.injEq] at h
    subst h
    split
    · rw [stepIn_mem]; exact contextSent_mem _ _
    · split
      · rw [demote_mem, peerAdvance_mem, advanceEpochs_mem]; exact contextSent_mem _ _
      · exact contextSent_mem _ _
    · exact contextSent_mem _ _

theorem setAbroad_mem (d : Device) (n : ChanNo) (i : LqIdx) (r : Option Raw) : memOf (setAbroad d n i r) = memOf d := rfl
theorem queueDelay_mem (d : Device) (x : DelayCell) : memOf (queueDelay d x) = memOf d := rfl
theorem putMirror_mem (d : Device) (c : RCell) : memOf (putMirror d c) = memOf d := rfl
theorem sendDelay_mem (d t : Device) (h : sendDelay d = some t) : memOf t = memOf d := by
  unfold sendDelay at h
  split at h
  · cases h
  · simp only [Option.some.injEq] at h
    subst h
    split <;> rfl

theorem mirrorTurn_mem (d t : Device) (q : ReqNo) (h : mirrorTurn d q = some t) : memOf t = memOf d := by
  unfold mirrorTurn at h
  split at h
  · rename_i h'
    cases h
    split at h'
    · exact sendDelay_mem _ _ h'
    · cases h'
  · exact sendMirror_mem _ _ _ h

theorem dataPhase_mem (d : Device) (r : ResNo) (x : Requester) :
    memOf (dataPhase d r x) = memOf d := by
  unfold dataPhase
  simp only []
  split
  · exact grantBank_mem _ _ _
  · split
    · rename_i t h
      (repeat' split at h) <;> first
        | exact (mirrorTurn_mem _ _ _ h).trans (onArb_mem _ _ _)
        | exact (copyCell_mem _ _ _ _ h).trans (onArb_mem _ _ _)
        | (cases h; exact onArb_mem _ _ _)
        | cases h
    · rw [askAgain_mem, onArb_mem, onArb_mem]
theorem decision_mem (d : Device) (r : ResNo) :
    memOf (decision d r) = memOf d := by
  unfold decision
  simp only []
  (repeat' split) <;> simp only [dataPhase_mem, onArb_mem, takeTables_mem]
theorem portAsks_mem (d : Device) (q : ReqNo) :
    memOf (portAsks d q) = memOf d := by
  unfold portAsks
  grind -ring -linarith -lia -ac -order [portAsk_mem, memOf]
theorem release_mem (d : Device) (r : ResNo) :
    memOf (release d r) = memOf d := by
  unfold release
  simp only []
  (repeat' split) <;> simp only [dataPhase_mem, onArb_mem, askAgain_mem, releaseBank_mem, portAsks_mem]
theorem request_mem (d : Device) (x : Requester) (r : ResNo) :
    memOf (request d x r) = memOf d := by
  unfold request
  grind -ring -linarith -lia -ac -order [orderFault_mem, portRefused_mem, turnTo_mem, memOf]
theorem freezeWrite_mem (d : Device) (m : BitVec 20) :
    memOf (freezeWrite d m) = memOf d := by
  unfold freezeWrite
  grind -ring -linarith -lia -ac -order [memOf]
theorem rxSof_mem (d : Device) (n : ChanNo) :
    memOf (rxSof d n) = memOf d := by
  unfold rxSof
  grind -ring -linarith -lia -ac -order [onFe_mem, memOf]
theorem leaveOnBus_mem (d : Device) (n : ChanNo) :
    memOf (leaveOnBus d n) = memOf d := by
  unfold leaveOnBus
  grind -ring -linarith -lia -ac -order [settleClosing_mem, memOf]
theorem lqRefetch_mem (d : Device) (n : ChanNo) (i : LqIdx) :
    memOf (lqRefetch d n i) = memOf d := by
  unfold lqRefetch
  grind -ring -linarith -lia -ac -order [lqKeep_mem, memOf]
theorem startFrame_mem (d : Device) (n : ChanNo) (i : LqIdx) (loop : Option (BitVec 7)) :
    memOf (startFrame d n i loop) = memOf d := by
  unfold startFrame
  grind -ring -linarith -lia -ac -order [leaveOnBus_mem, lqFetch_mem, lqPut_mem, lqRefetch_mem, onFe_mem, onSlp_mem, memOf]
theorem sofOp_mem (d : Device) (n : ChanNo) (loop : Option (BitVec 7)) :
    memOf (sofOp d n loop) = memOf d := by
  unfold sofOp withBank
  grind -ring -linarith -lia -ac -order [startFrame_mem, turnTo_mem, useBank_mem, memOf]
theorem frameEnds_mem (d : Device) (n : ChanNo) :
    memOf (frameEnds d n) = memOf d := by
  unfold frameEnds
  grind -ring -linarith -lia -ac -order [onFe_mem, memOf]
theorem frameBreaks_mem (d : Device) (n : ChanNo) :
    memOf (frameBreaks d n) = memOf d := by
  unfold frameBreaks
  grind -ring -linarith -lia -ac -order [onFe_mem, memOf]
theorem receiveCount_mem (d : Device) (n : ChanNo) :
    memOf (receiveCount d n) = memOf d := by
  unfold receiveCount
  grind -ring -linarith -lia -ac -order [fcChange_mem, memOf]
theorem followCommit_mem (d : Device) (n : ChanNo) (f : Frame) :
    memOf (followCommit d n f) = memOf d := by
  unfold followCommit
  grind -ring -linarith -lia -ac -order [armStrobe_mem, mirrorBallot_mem, onSlp_mem, memOf]
theorem ballotSent_mem (d : Device) (n : ChanNo) (i : LqIdx) :
    memOf (ballotSent d n i) = memOf d := by
  unfold ballotSent
  grind -ring -linarith -lia -ac -order [mirrorBallot_mem, onSlp_mem, memOf]
theorem txValid_mem (d : Device) (n : ChanNo) :
    memOf (txValid d n) = memOf d := by
  unfold txValid
  grind -ring -linarith -lia -ac -order [ballotSent_mem, fcChange_mem, frameEnds_mem, onLq_mem, stageFrame_mem, memOf]
theorem commitFails_mem (d : Device) (n : ChanNo) (i : Option LqIdx) :
    memOf (commitFails d n i) = memOf d := by
  unfold commitFails
  grind -ring -linarith -lia -ac -order [disarm_mem, memOf]
theorem arbLost_mem (d : Device) (n : ChanNo) :
    memOf (arbLost d n) = memOf d := by
  unfold arbLost
  grind -ring -linarith -lia -ac -order [attemptFails_mem, commitFails_mem, onFe_mem, releaseFrame_mem, memOf]
theorem errorCount_mem (d : Device) (n : ChanNo) (cnt : ErrCount) :
    memOf (errorCount d n cnt) = memOf d := by
  unfold errorCount
  grind -ring -linarith -lia -ac -order [fcSet_mem, memOf]
theorem dropPreArm_mem (d : Device) (n : ChanNo) :
    memOf (dropPreArm d n) = memOf d := by
  unfold dropPreArm
  grind -ring -linarith -lia -ac -order [disarm_mem, onWake_mem, wake_mem, memOf]
theorem errorOp_mem (d : Device) (n : ChanNo) (kind : ErrKind) (field : BusField) (idx : BitVec 12) (cnt : ErrCount) :
    memOf (errorOp d n kind field idx cnt) = memOf d := by
  unfold errorOp
  grind -ring -linarith -lia -ac -order [afterMode_mem, attemptFails_mem, castleOnBusOff_mem, commitFails_mem, dropPreArm_mem, errorCount_mem, errorEntry_mem, fcEvents_mem, followedEnds_mem, frameBreaks_mem, onFe_mem, releaseFrame_mem, memOf]
theorem pexOp_mem (d : Device) (n : ChanNo) (field : BusField) (idx : BitVec 12) :
    memOf (pexOp d n field idx) = memOf d := by
  unfold pexOp
  grind -ring -linarith -lia -ac -order [attemptFails_mem, commitFails_mem, dropPreArm_mem, errorEntry_mem, followedEnds_mem, frameBreaks_mem, onFe_mem, releaseFrame_mem, memOf]
theorem integrate_mem (d : Device) (n : ChanNo) :
    memOf (integrate d n) = memOf d := by
  unfold integrate
  grind -ring -linarith -lia -ac -order [onFe_mem, memOf]
theorem recoveryStart_mem (d : Device) (n : ChanNo) :
    memOf (recoveryStart d n) = memOf d := by
  unfold recoveryStart
  grind -ring -linarith -lia -ac -order [fcEntry_mem, onFe_mem, memOf]
theorem recoveryDone_mem (d : Device) (n : ChanNo) :
    memOf (recoveryDone d n) = memOf d := by
  unfold recoveryDone
  grind -ring -linarith -lia -ac -order [afterMode_mem, fcChange_mem, fcEntry_mem, onFe_mem, memOf]
theorem memWords_mem (d : Device) (a n : Nat) :
    memOf (memWords d a n).2 = memOf d := by
  induction n generalizing d a with
  | zero => rfl
  | succ n ih =>
    unfold memWords
    exact (ih _ _).trans (memRead_mem _ _)
theorem setResult_mem (d : Device) (r : LoadResult) (verify : Bool) :
    memOf (setResult d r verify) = memOf d := by
  unfold setResult
  grind -ring -linarith -lia -ac -order [memOf]
theorem flushQueue_mem (d : Device) (n : ChanNo) :
    memOf (flushQueue d n) = memOf d := by
  unfold flushQueue
  grind -ring -linarith -lia -ac -order [lqWithdraw_mem, onLq_mem, memOf, foldl_mem, forChans_mem]
theorem placeJournal_mem (d : Device) (n : ChanNo) (base cap : Nat) :
    memOf (placeJournal d n base cap) = memOf d := by
  unfold placeJournal
  grind -ring -linarith -lia -ac -order [onJn_mem, memOf]
theorem setRole_mem (d : Device) (n : ChanNo) (r : Role) :
    memOf (setRole d n r) = memOf d := by
  unfold setRole
  grind -ring -linarith -lia -ac -order [afterMode_mem, onFe_mem, memOf]
theorem loadChannel_mem (d : Device) (n : ChanNo) (cs mp : List Byte) :
    memOf (loadChannel d n cs mp) = memOf d := by
  unfold loadChannel
  grind -ring -linarith -lia -ac -order [flushQueue_mem, onFe_mem, onLq_mem, placeJournal_mem, setRole_mem, memOf]
theorem loadLine_mem (d : Device) (n : ChanNo) (ls : List Byte) :
    memOf (loadLine d n ls) = memOf d := by
  unfold loadLine toSentinel
  grind -ring -linarith -lia -ac -order [onLine_mem, onWake_mem, memOf]
theorem loadSleep_mem (d : Device) (n : ChanNo) (sp : List Byte) :
    memOf (loadSleep d n sp) = memOf d := by
  unfold loadSleep
  grind -ring -linarith -lia -ac -order [onSlp_mem, memOf]
theorem loadRxdly_mem (d : Device) (n : ChanNo) :
    memOf (loadRxdly d n) = memOf d := by
  unfold loadRxdly
  grind -ring -linarith -lia -ac -order [onLine_mem, memOf]
theorem loadDelays_mem (d : Device) (cs : List ChanNo) :
    memOf (loadDelays d cs) = memOf d := by
  unfold loadDelays
  grind -ring -linarith -lia -ac -order [loadRxdly_mem, memOf, foldl_mem, forChans_mem]
theorem loadBusChannel_mem (ss : List Section) (d : Device) (n : ChanNo) :
    memOf (loadBusChannel ss d n) = memOf d := by
  unfold loadBusChannel
  grind -ring -linarith -lia -ac -order [loadChannel_mem, loadLine_mem, loadSleep_mem, memOf]
theorem loadProgram_mem (d : Device) (s : Section) :
    memOf (loadProgram d s) = memOf d := by
  unfold loadProgram
  grind -ring -linarith -lia -ac -order [onEng_mem, memOf]
theorem loadPin_mem (pb qj : List Byte) (d : Device) (p : PinNo) :
    memOf (loadPin pb qj d p) = memOf d := by
  unfold loadPin
  grind -ring -linarith -lia -ac -order [onPin_mem, memOf]
theorem loadEngines_mem (ss : List Section) (d : Device) (k : Nat) :
    memOf (loadEngines ss d k) = memOf d := by
  unfold loadEngines
  grind -ring -linarith -lia -ac -order [loadPin_mem, loadProgram_mem, memOf, foldl_mem, forChans_mem]
theorem loadTables_mem (ss : List Section) (d : Device) :
    memOf (loadTables ss d) = memOf d := by
  unfold loadTables
  grind -ring -linarith -lia -ac -order [memOf]
theorem tablesDue_mem (d : Device) :
    memOf (tablesDue d) = memOf d := by
  unfold tablesDue
  grind -ring -linarith -lia -ac -order [memOf]
theorem tablesNow_mem (d : Device) :
    memOf (tablesNow d) = memOf d := by
  unfold tablesNow
  grind -ring -linarith -lia -ac -order [memOf]
theorem loadPair_mem (ss : List Section) (d : Device) :
    memOf (loadPair ss d) = memOf d := by
  unfold loadPair
  grind -ring -linarith -lia -ac -order [memOf]
theorem loadPlans_mem (ss : List Section) (d : Device) :
    memOf (loadPlans ss d) = memOf d := by
  unfold loadPlans
  grind -ring -linarith -lia -ac -order [memOf]
theorem loadStage_mem (ss : List Section) (d : Device) :
    memOf (loadStage ss d) = memOf d := by
  unfold loadStage
  grind -ring -linarith -lia -ac -order [memOf]
theorem offlineEntry_mem (tick : Nat) (d : Device) (n : ChanNo) :
    memOf (offlineEntry tick d n) = memOf d := by
  unfold offlineEntry
  grind -ring -linarith -lia -ac -order [onWake_mem, wakeSleep_mem, memOf]
theorem autostarts_mem (ks : List EngNo) (d : Device) :
    memOf (autostarts ks d) = memOf d := by
  unfold autostarts
  grind -ring -linarith -lia -ac -order [startEngine_mem, memOf, foldl_mem, forChans_mem]
theorem fullLoad_mem (ss : List Section) (imageId : Nat) (tick : Nat) (d : Device) :
    memOf (fullLoad ss imageId tick d) = memOf d := by
  unfold fullLoad
  grind -ring -linarith -lia -ac -order [autostarts_mem, loadBusChannel_mem, loadDelays_mem, loadEngines_mem, loadPair_mem, loadPlans_mem, loadStage_mem, loadTables_mem, offlineEntry_mem, setResult_mem, tablesNow_mem, memOf, foldl_mem, forChans_mem]
theorem beginHold_mem (d : Device) (k : Nat) (byHost : Bool) :
    memOf (beginHold d k byHost) = memOf d := by
  unfold beginHold
  grind -ring -linarith -lia -ac -order [ballotEnd_mem, stopEngine_mem, memOf, foldl_mem, forChans_mem]
theorem tokenAtRelease_mem (d : Device) (n : ChanNo) :
    memOf (tokenAtRelease d n) = memOf d := by
  unfold tokenAtRelease
  grind -ring -linarith -lia -ac -order [setToken_mem, memOf]
theorem releaseChan_mem (d : Device) (n : ChanNo) :
    memOf (releaseChan d n) = memOf d := by
  unfold releaseChan
  grind -ring -linarith -lia -ac -order [lineRequest_mem, tokenAtRelease_mem, memOf]
theorem releaseAsIs_mem (d : Device) (n : ChanNo) :
    memOf (releaseAsIs d n) = memOf d := by
  unfold releaseAsIs
  grind -ring -linarith -lia -ac -order [lineRequest_mem, tokenAtRelease_mem, memOf]
theorem advanceDistrict_mem (d : Device) (k : Fin 14) :
    memOf (advanceDistrict d k) = memOf d := by
  unfold advanceDistrict
  grind -ring -linarith -lia -ac -order [mirrorEpoch_mem, sendRoute_mem, sendTopo_mem, memOf]
theorem releaseDistrict_mem (d : Device) (k : Nat) (host : Bool) :
    memOf (releaseDistrict d k host) = memOf d := by
  unfold releaseDistrict
  grind -ring -linarith -lia -ac -order [advanceDistrict_mem, autostarts_mem, onImg_mem, releaseAsIs_mem, releaseChan_mem, tablesDue_mem, memOf, foldl_mem, forChans_mem]
theorem loaderFreezes_mem (d : Device) (rs : List ResNo) :
    memOf (loaderFreezes d rs) = memOf d := by
  unfold loaderFreezes
  grind -ring -linarith -lia -ac -order [memOf, foldl_mem, forChans_mem]
theorem takeBanks_mem (d : Device) (rs : List ResNo) :
    memOf (takeBanks d rs).2 = memOf d := by
  induction rs generalizing d with
  | nil => rfl
  | cons r t ih =>
    unfold takeBanks
    split
    · exact ih d
    · split
      · exact (ih _).trans ((onArb_mem _ _ _).trans (useBank_mem _ _ _))
      · exact awaitAll_mem _ _ _ _
theorem leaveBanks_mem (d : Device) (rs : List ResNo) :
    memOf (leaveBanks d rs) = memOf d := by
  unfold leaveBanks
  grind -ring -linarith -lia -ac -order [loaderFreezes_mem, releaseBank_mem, memOf, foldl_mem, forChans_mem]
theorem lineDue_mem (d : Device) (n : ChanNo) :
    memOf (lineDue d n) = memOf d := by
  unfold lineDue
  grind -ring -linarith -lia -ac -order [onLine_mem, memOf]
theorem rewrite_mem (d : Device) (k : Nat) (ss : List Section) (rs : List ResNo) :
    memOf (rewrite d k ss rs) = memOf d := by
  unfold rewrite
  grind -ring -linarith -lia -ac -order [leaveBanks_mem, lineDue_mem, loadBusChannel_mem, loadDelays_mem, loadEngines_mem, loadTables_mem, releaseDistrict_mem, setResult_mem, memOf, foldl_mem, forChans_mem]
theorem rebuild_mem (d : Device) (k : Nat) (ss : List Section) :
    memOf (rebuild d k ss) = memOf d := by
  have h := takeBanks_mem (loaderFreezes d (movedBanks d k ss)) (movedBanks d k ss)
  rw [loaderFreezes_mem] at h
  unfold rebuild
  dsimp only
  generalize takeBanks (loaderFreezes d (movedBanks d k ss)) (movedBanks d k ss) = x at *
  obtain ⟨b, t⟩ := x
  cases b
  · exact h
  · exact (rewrite_mem _ k ss _).trans ((noWait_mem _ _ _).trans h)
theorem holdDrained_mem (d : Device) (k : Nat) :
    memOf (holdDrained d k) = memOf d := by
  unfold holdDrained
  grind -ring -linarith -lia -ac -order [lineRequest_mem, rebuild_mem, memOf, foldl_mem, forChans_mem]
theorem applyGo_mem (d : Device) :
    memOf (applyGo d) = memOf d := by
  unfold applyGo
  grind -ring -linarith -lia -ac -order [rebuild_mem, memOf]
theorem drainOp_mem (d : Device) :
    memOf (drainOp d) = memOf d := by
  unfold drainOp
  grind -ring -linarith -lia -ac -order [applyGo_mem, holdDrained_mem, memOf]
theorem imageToApply_mem (d : Device) (k : Nat) (ss : List Section) :
    memOf (imageToApply d k ss) = memOf d := by
  unfold imageToApply
  grind -ring -linarith -lia -ac -order [beginHold_mem, holdDrained_mem, onImg_mem, rebuild_mem, memOf]
theorem loadChecked_mem (d : Device) (apply : Bool) (k : Nat) (x : Option LoadResult × List Section) :
    memOf (loadChecked d apply k x) = memOf d := by
  unfold loadChecked
  grind -ring -linarith -lia -ac -order [imageToApply_mem, setResult_mem, memOf]
theorem loadRead_mem (d : Device) (apply : Bool) (len : Nat) (b : List Byte) :
    memOf (loadRead d apply len b) = memOf d := by
  unfold loadRead
  grind -ring -linarith -lia -ac -order [loadChecked_mem, setResult_mem, memOf]
theorem readStage_mem (fuel : Nat) (d : Device) :
    memOf (readStage fuel d) = memOf d := by
  induction fuel generalizing d with
  | zero => unfold readStage; rfl
  | succ m ih =>
    unfold readStage
    cases hr : d.img.reading with
    | none => rfl
    | some x =>
      obtain ⟨apply, len, b⟩ := x
      dsimp only
      split
      · rw [loadRead_mem, noWait_mem]
      · split
        · refine (ih _).trans ?_
          have hw := fun a n => (memWords_mem (useAll d loaderReq .loader [bankOf a]) a n).trans (useAll_mem _ _ _ _)
          simp only [memOf] at hw ⊢
          split
          · exact (releaseBank_mem _ _).trans (hw _ _)
          · exact hw _ _
        · exact awaitAll_mem _ _ _ _
theorem loaderGo_mem (d : Device) :
    memOf (loaderGo d) = memOf d := by
  unfold loaderGo
  split
  · exact readStage_mem _ _
  · exact applyGo_mem _
theorem loadCommand_mem (d : Device) (apply : Bool) :
    memOf (loadCommand d apply) = memOf d := by
  unfold loadCommand
  grind -ring -linarith -lia -ac -order [loaderGo_mem, setResult_mem, memOf]
theorem holdCommand_mem (d : Device) (src : Src) (k : Nat) :
    memOf (holdCommand d src k) = memOf d := by
  unfold holdCommand
  grind -ring -linarith -lia -ac -order [beginHold_mem, glbErr_mem, holdDrained_mem, setResult_mem, memOf]
theorem releaseCommand_mem (d : Device) (src : Src) (k : Nat) :
    memOf (releaseCommand d src k) = memOf d := by
  unfold releaseCommand
  grind -ring -linarith -lia -ac -order [glbErr_mem, releaseDistrict_mem, setResult_mem, memOf]
theorem mirrorLog_mem (d : Device) (n : ChanNo) :
    memOf (mirrorLog d n) = memOf d := by
  unfold mirrorLog
  grind -ring -linarith -lia -ac -order [mirrorChan_mem, memOf, foldl_mem, forChans_mem]
theorem recordHold_mem (d : Device) (n : ChanNo) (h : BitVec 7 × Raw) :
    memOf (recordHold d n h) = memOf d := by
  unfold recordHold
  grind -ring -linarith -lia -ac -order [eventNow_mem, onSlp_mem, onWake_mem, wakeSleep_mem, memOf]
theorem updateLog_mem (d : Device) (n : ChanNo) :
    memOf (updateLog d n) = memOf d := by
  unfold updateLog
  grind -ring -linarith -lia -ac -order [mirrorLog_mem, onSlp_mem, recordHold_mem, memOf, foldl_mem, forChans_mem]
theorem descentEndOp_mem (d : Device) (n : ChanNo) :
    memOf (descentEndOp d n) = memOf d := by
  unfold descentEndOp
  grind -ring -linarith -lia -ac -order [ballotEnd_mem, lineMove_mem, mirrorBallot_mem, memOf]
theorem holdWithdraw_mem (d : Device) (n : ChanNo) :
    memOf (holdWithdraw d n) = memOf d := by
  unfold holdWithdraw
  grind -ring -linarith -lia -ac -order [lqFree_mem, onSlp_mem, memOf]
theorem followPreArm_mem (d : Device) (n : ChanNo) : memOf (followPreArm d n) = memOf d := by
  unfold followPreArm
  grind -ring -linarith -lia -ac -order [armOp_mem, onWake_mem, wakeSleep_mem, memOf]
theorem wakeCalStart_mem (d : Device) (n : ChanNo) :
    memOf (wakeCalStart d n) = memOf d := by
  unfold wakeCalStart
  grind -ring -linarith -lia -ac -order [onWake_mem, memOf]
theorem wakeCalDone_mem (d : Device) (n : ChanNo) (taps : BitVec 12) :
    memOf (wakeCalDone d n taps) = memOf d := by
  unfold wakeCalDone
  grind -ring -linarith -lia -ac -order [armWith_mem, onWake_mem, memOf]
theorem wakeModeEntry_mem (d : Device) (n : ChanNo) (mode : Bool) (cause : Nat) :
    memOf (wakeModeEntry d n mode cause) = memOf d := by
  unfold wakeModeEntry
  grind -ring -linarith -lia -ac -order [wakeSleep_mem, memOf]
theorem fallback_mem (d : Device) (n : ChanNo) (tick : Nat) :
    memOf (fallback d n tick) = memOf d := by
  unfold fallback
  grind -ring -linarith -lia -ac -order [eventNow_mem, onWake_mem, wakeModeEntry_mem, memOf]
theorem falseWake_mem (d : Device) (n : ChanNo) (tick : Nat) :
    memOf (falseWake d n tick) = memOf d := by
  unfold falseWake
  grind -ring -linarith -lia -ac -order [fallback_mem, onWake_mem, wakeSleep_mem, memOf]
theorem hostWakeMode_mem (d : Device) (n : ChanNo) (frameOnly : Bool) :
    memOf (hostWakeMode d n frameOnly) = memOf d := by
  unfold hostWakeMode
  grind -ring -linarith -lia -ac -order [onWake_mem, wakeModeEntry_mem, memOf]
theorem decoderFrame_mem (d : Device) (n : ChanNo) (valid : Bool) :
    memOf (decoderFrame d n valid) = memOf d := by
  unfold decoderFrame
  grind -ring -linarith -lia -ac -order [onWake_mem, memOf]
theorem deviceReset_mem (d : Device) (cause : Nat) :
    memOf (deviceReset d cause) = memOf d := by
  unfold deviceReset
  grind -ring -linarith -lia -ac -order [memOf]
theorem updateEvent_mem (d : Device) (kind : Nat) (slot : Bool) (cause : Nat) (owner : Nat) :
    memOf (updateEvent d kind slot cause owner) = memOf d := by
  unfold updateEvent
  grind -ring -linarith -lia -ac -order [eventNow_mem, memOf]
theorem ledgerShow_mem (d : Device) (c trial : Bool) :
    memOf (ledgerShow d c trial) = memOf d := by
  unfold ledgerShow
  grind -ring -linarith -lia -ac -order [memOf]
theorem standbyCancel_mem (d : Device) :
    memOf (standbyCancel d) = memOf d := by
  unfold standbyCancel
  grind -ring -linarith -lia -ac -order [memOf]
theorem tagDefaults_mem (d : Device) (ss : List Section) :
    memOf (tagDefaults d ss) = memOf d := by
  unfold tagDefaults
  grind -ring -linarith -lia -ac -order [memOf, foldl_mem, forChans_mem]
theorem loadLedger_mem (d : Device) (c : Bool) :
    memOf (loadLedger d c) = memOf d := by
  unfold loadLedger
  grind -ring -linarith -lia -ac -order [ledgerShow_mem, onSvc_mem, memOf]
theorem takeStation_mem (d : Device) :
    memOf (takeStation d) = memOf d := by
  unfold takeStation
  grind -ring -linarith -lia -ac -order [memOf]
theorem lanesStart_mem (d : Device) :
    memOf (lanesStart d) = memOf d := by
  unfold lanesStart
  grind -ring -linarith -lia -ac -order [onPort_mem, trainIfPresent_mem, memOf]
theorem imageStep_mem (d : Device) (b : Bool) (ss : List Section) (tick : Nat) :
    memOf (imageStep d b ss tick) = memOf d := by
  unfold imageStep
  grind -ring -linarith -lia -ac -order [fullLoad_mem, ringEnable_mem, memOf]
theorem latticeUp_mem (d : Device) :
    memOf (latticeUp d) = memOf d := by
  unfold latticeUp
  grind -ring -linarith -lia -ac -order [memOf]
theorem flashProbed_mem (d : Device) :
    memOf (flashProbed d) = memOf d := by
  unfold flashProbed
  grind -ring -linarith -lia -ac -order [onSvc_mem, memOf]
theorem serviceStart_mem (d : Device) :
    memOf (serviceStart d) = memOf d := by
  unfold serviceStart
  grind -ring -linarith -lia -ac -order [releaseChan_mem, foldl_mem, forChans_mem, memOf]
theorem joinComplete_mem (d : Device) :
    memOf (joinComplete d) = memOf d := by
  unfold joinComplete
  grind -ring -linarith -lia -ac -order [acquireTime_mem, formStep_mem, refSelect_mem, sendTopo_mem, updateEvent_mem, memOf]
theorem lineComplete_mem (d : Device) (n : ChanNo) :
    memOf (lineComplete d n) = memOf d := by
  unfold lineComplete
  grind -ring -linarith -lia -ac -order [inhCheck_mem, onLine_mem, memOf]
theorem wupOp_mem (d : Device) (n : ChanNo) (tick : Nat) :
    memOf (wupOp d n tick) = memOf d := by
  unfold wupOp
  grind -ring -linarith -lia -ac -order [wakeChannel_mem, wake_mem, memOf]
theorem wufOp_mem (d : Device) (n : ChanNo) (tick : Nat) (f : Frame) :
    memOf (wufOp d n tick f) = memOf d := by
  unfold wufOp
  grind -ring -linarith -lia -ac -order [wakeChannel_mem, wake_mem, memOf]
theorem wufErrOp_mem (d : Device) (n : ChanNo) (tick : Nat) :
    memOf (wufErrOp d n tick) = memOf d := by
  unfold wufErrOp
  grind -ring -linarith -lia -ac -order [wakeChannel_mem, wake_mem, memOf]
theorem wakeNOp_mem (d : Device) (tick : Nat) :
    memOf (wakeNOp d tick) = memOf d := by
  unfold wakeNOp
  grind -ring -linarith -lia -ac -order [onSent_mem, wakeChannel_mem, wakeSentinel_mem, foldl_mem, forChans_mem, memOf]
theorem confirmExpiry_mem (d : Device) (n : ChanNo) :
    memOf (confirmExpiry d n) = memOf d := by
  unfold confirmExpiry
  grind -ring -linarith -lia -ac -order [lineMove_mem, onLine_mem, onWake_mem, memOf]
theorem orphanChan_mem (d : Device) (n : ChanNo) :
    memOf (orphanChan d n) = memOf d := by
  unfold orphanChan
  grind -ring -linarith -lia -ac -order [lineMove_mem, onLine_mem, onWake_mem, memOf]
theorem undervoltChan_mem (d : Device) (n : ChanNo) :
    memOf (undervoltChan d n) = memOf d := by
  unfold undervoltChan
  grind -ring -linarith -lia -ac -order [lineMove_mem, onLine_mem, memOf]
theorem dominantOp_mem (d : Device) (n : ChanNo) :
    memOf (dominantOp d n) = memOf d := by
  unfold dominantOp
  grind -ring -linarith -lia -ac -order [busState_mem, onLine_mem, memOf]
theorem lineCalStart_mem (d : Device) (n : ChanNo) :
    memOf (lineCalStart d n) = memOf d := by
  unfold lineCalStart
  grind -ring -linarith -lia -ac -order [onLine_mem, memOf]
theorem biasRelease_mem (d : Device) (n : ChanNo) :
    memOf (biasRelease d n) = memOf d := by
  unfold biasRelease
  grind -ring -linarith -lia -ac -order [onLine_mem, onWake_mem, memOf]
theorem decodingOp_mem (d : Device) (n : ChanNo) :
    memOf (decodingOp d n) = memOf d := by
  unfold decodingOp
  grind -ring -linarith -lia -ac -order [onLine_mem, onWake_mem, memOf]
theorem sentinelReset_mem (d : Device) (n : ChanNo) :
    memOf (sentinelReset d n) = memOf d := by
  unfold sentinelReset
  grind -ring -linarith -lia -ac -order [afterMode_mem, onLine_mem, onWake_mem, memOf]
theorem vaonAssert_mem (d : Device) :
    memOf (vaonAssert d) = memOf d := by
  unfold vaonAssert
  grind -ring -linarith -lia -ac -order [sentinelReset_mem, memOf, foldl_mem, forChans_mem]
theorem vaonRelease_mem (d : Device) :
    memOf (vaonRelease d) = memOf d := by
  unfold vaonRelease
  grind -ring -linarith -lia -ac -order [memOf]
theorem masterGone_mem (d : Device) :
    memOf (masterGone d) = memOf d := by
  unfold masterGone
  split
  · exact refSelect_mem _
  · rfl
theorem masterWrite_mem (d : Device) (station : BitVec 10) :
    memOf (masterWrite d station) = memOf d := by
  unfold masterWrite
  grind -ring -linarith -lia -ac -order [refSelect_mem, memOf]
theorem beforeWide_mem (d : Device) (a : Nat) :
    memOf (beforeWide d a) = memOf d := by
  unfold beforeWide
  split
  · exact convComplete_mem d
  · rfl
theorem specialRead_mem (d : Device) (a : Nat) (r : Word × Device) (h : specialRead d a = some r) : memOf r.2 = memOf d := by
  have hch : ∀ n o, chanSpecial d n o = some r → memOf r.2 = memOf d := by
    intro n o h
    unfold chanSpecial at h
    grind -ring -linarith -lia -ac -order [readPop_mem, popMany_mem, popWord_mem, memCount_mem, memRead_mem]
  have htim : ∀ o, timSpecial d o = some r → memOf r.2 = memOf d := by
    intro o h
    unfold timSpecial at h
    grind -ring -linarith -lia -ac -order [nowRead_mem, offsRead_mem, convComplete_mem]
  have heng : ∀ k o, engSpecial d k o = some r → memOf r.2 = memOf d := by
    intro k o h
    unfold engSpecial at h
    grind -ring -linarith -lia -ac -order [hostPop_mem, scrRead_mem]
  unfold specialRead at h
  split at h
  · exact hch _ _ h
  · split at h
    · exact htim _ h
    · split at h
      · exact heng _ _ h
      · split at h
        · cases h; exact memRead_mem _ _
        · cases h

theorem readReg_mem (d : Device) (a : Nat) :
    memOf (readReg d a).2 = memOf d := by
  unfold readReg
  split
  · exact specialRead_mem _ _ _ ‹_›
  · simp only []
    (repeat' split) <;> simp only [latchHi_mem, beforeWide_mem]
theorem chErr_mem (d : Device) (n : ChanNo) (bit o : Nat) :
    memOf (chErr d n bit o) = memOf d := by
  unfold chErr
  grind -ring -linarith -lia -ac -order [onFe_mem, memOf]
theorem tagPut_mem (d : Device) (i : Nat) (v : Word) :
    memOf (tagPut d i v) = memOf d := by
  unfold tagPut
  grind -ring -linarith -lia -ac -order [memOf]
theorem tagWrite_mem (d : Device) (src : Src) (o : Nat) (v : Word) :
    memOf (tagWrite d src o v) = memOf d := by
  unfold tagWrite ifLegal
  grind -ring -linarith -lia -ac -order [glbErr_mem, tagPut_mem, memOf]
theorem sentWrite_mem (d : Device) (src : Src) (o : Nat) (v : Word) :
    memOf (sentWrite d src o v) = memOf d := by
  unfold sentWrite ifLegal toSentinel
  grind -ring -linarith -lia -ac -order [glbErr_mem, onSent_mem, memOf]
theorem latWrite_mem (d : Device) (o : Nat) (v : Word) :
    memOf (latWrite d o v) = memOf d := by
  unfold latWrite
  grind -ring -linarith -lia -ac -order [memOf]
theorem timingWrite_mem (d : Device) (n : ChanNo) (o : Nat) (ok : Bool) (f : FrameEngine → FrameEngine) :
    memOf (timingWrite d n o ok f) = memOf d := by
  unfold timingWrite ifLegalCh
  grind -ring -linarith -lia -ac -order [chErr_mem, onFe_mem, memOf]
theorem feWrite_mem (d : Device) (n : ChanNo) (o : Nat) (v : Word) :
    memOf (feWrite d n o v) = memOf d := by
  unfold feWrite
  grind -ring -linarith -lia -ac -order [onFe_mem, recoveryStart_mem, timingWrite_mem, memOf]
theorem cancelWrite_mem (d : Device) (n : ChanNo) (v : Word) :
    memOf (cancelWrite d n v) = memOf d := by
  unfold cancelWrite
  grind -ring -linarith -lia -ac -order [startCancel_mem, memOf]
theorem jnWrite_mem (d : Device) (n : ChanNo) (o : Nat) (v : Word) :
    memOf (jnWrite d n o v) = memOf d := by
  unfold jnWrite
  grind -ring -linarith -lia -ac -order [onJn_mem, writeJctrl_mem, memOf]
theorem wakeCfgWrite_mem (d : Device) (n : ChanNo) (v : Word) :
    memOf (wakeCfgWrite d n v) = memOf d := by
  unfold wakeCfgWrite
  grind -ring -linarith -lia -ac -order [hostWakeMode_mem, onWake_mem, memOf]
theorem holdWrite_mem (d : Device) (n : ChanNo) (o : Nat) (v : Word) :
    memOf (holdWrite d n o v) = memOf d := by
  unfold holdWrite
  grind -ring -linarith -lia -ac -order [onSlp_mem, memOf]
theorem lineCtrl_mem (d : Device) (n : ChanNo) (v : Word) :
    memOf (lineCtrl d n v) = memOf d := by
  unfold lineCtrl ifLegalCh
  grind -ring -linarith -lia -ac -order [chErr_mem, lineRequest_mem, localWakeWrite_mem, termWrite_mem, memOf]
theorem lineWrite_mem (d : Device) (n : ChanNo) (o : Nat) (v : Word) :
    memOf (lineWrite d n o v) = memOf d := by
  unfold lineWrite ifLegalCh toSentinel
  grind -ring -linarith -lia -ac -order [chErr_mem, lineCalStart_mem, lineCtrl_mem, onLine_mem, memOf]
theorem timCtrl_mem (d : Device) (v : Word) :
    memOf (timCtrl d v) = memOf d := by
  unfold timCtrl
  grind -ring -linarith -lia -ac -order [refSelect_mem, memOf]
theorem timWrite_mem (d : Device) (src : Src) (o : Nat) (v : Word) :
    memOf (timWrite d src o v) = memOf d := by
  unfold timWrite ifLegal
  grind -ring -linarith -lia -ac -order [convPut_mem, glbErr_mem, masterWrite_mem, timCtrl_mem, memOf]
theorem ringCtrl_mem (d : Device) (v : Word) :
    memOf (ringCtrl d v) = memOf d := by
  unfold ringCtrl
  grind -ring -linarith -lia -ac -order [rejoinOp_mem, retrain_mem, ringEnable_mem, memOf]
theorem portWrite_mem (d : Device) (p : Port) (o : Nat) (v : Word) :
    memOf (portWrite d p o v) = memOf d := by
  unfold portWrite
  grind -ring -linarith -lia -ac -order [onPort_mem, memOf]
theorem rngWrite_mem (d : Device) (src : Src) (o : Nat) (v : Word) :
    memOf (rngWrite d src o v) = memOf d := by
  unfold rngWrite ifLegal
  grind -ring -linarith -lia -ac -order [glbErr_mem, onSfp_mem, portWrite_mem, ringCtrl_mem, memOf]
theorem lckWrite_mem (d : Device) (src : Src) (o : Nat) (v : Word) :
    memOf (lckWrite d src o v) = memOf d := by
  unfold lckWrite
  grind -ring -linarith -lia -ac -order [localLock_mem, lockPut_mem, memOf]
theorem slotWrite_mem (d : Device) (src : Src) (a r w : Nat) (v : Word) :
    memOf (slotWrite d src a r w v) = memOf d := by
  unfold slotWrite ifLegal ifOpen
  grind -ring -linarith -lia -ac -order [glbErr_mem, memOf, foldl_mem, forChans_mem]
theorem bgWrite_mem (d : Device) (src : Src) (a r w : Nat) (v : Word) :
    memOf (bgWrite d src a r w v) = memOf d := by
  unfold bgWrite ifOpen
  grind -ring -linarith -lia -ac -order [glbErr_mem, memOf, foldl_mem, forChans_mem]
theorem conWrite_mem (d : Device) (src : Src) (o : Nat) (v : Word) :
    memOf (conWrite d src o v) = memOf d := by
  unfold conWrite
  simp only []
  (repeat' split) <;> first | rfl | simp only [bgWrite_mem, slotWrite_mem]
theorem pairCtrl_mem (d : Device) (v : Word) :
    memOf (pairCtrl d v) = memOf d := by
  unfold pairCtrl
  grind -ring -linarith -lia -ac -order [castleOp_mem, startResync_mem, memOf]
theorem prWrite_mem (d : Device) (src : Src) (o : Nat) (v : Word) :
    memOf (prWrite d src o v) = memOf d := by
  unfold prWrite ifLegal
  grind -ring -linarith -lia -ac -order [channelCastleOp_mem, glbErr_mem, pairCtrl_mem, memOf]
theorem engCtrl_mem (d : Device) (k : EngNo) (v : Word) :
    memOf (engCtrl d k v) = memOf d := by
  unfold engCtrl
  grind -ring -linarith -lia -ac -order [startEngine_mem, stopEngine_mem, memOf]
theorem pinWrite_mem (d : Device) (src : Src) (a : Nat) (p : PinNo) (o : Nat) (v : Word) :
    memOf (pinWrite d src a p o v) = memOf d := by
  unfold pinWrite ifLegal ifOpen
  grind -ring -linarith -lia -ac -order [glbErr_mem, hostPush_mem, onPin_mem, memOf]
theorem progWrite_mem (d : Device) (k : EngNo) (i : Nat) (v : Word) :
    memOf (progWrite d k i v) = memOf d := by
  unfold progWrite
  grind -ring -linarith -lia -ac -order [onEng_mem, memOf]
theorem meWrite_mem (d : Device) (src : Src) (a : Nat) (k : EngNo) (o : Nat) (v : Word) :
    memOf (meWrite d src a k o v) = memOf d := by
  unfold meWrite ifLegal ifOpen
  grind -ring -linarith -lia -ac -order [engCtrl_mem, glbErr_mem, onCtx_mem, onEng_mem, pinWrite_mem, progWrite_mem, scrWrite_mem, setGreg_mem, memOf]
theorem imgCtrl_mem (d : Device) (src : Src) (v : Word) :
    memOf (imgCtrl d src v) = memOf d := by
  unfold imgCtrl
  grind -ring -linarith -lia -ac -order [glbErr_mem, holdCommand_mem, loadCommand_mem, releaseCommand_mem, memOf]
theorem imgWrite_mem (d : Device) (src : Src) (o : Nat) (v : Word) :
    memOf (imgWrite d src o v) = memOf d := by
  unfold imgWrite ifLegal
  grind -ring -linarith -lia -ac -order [glbErr_mem, imgCtrl_mem, memOf]
theorem svcWrite_mem (d : Device) (o : Nat) (v : Word) :
    memOf (svcWrite d o v) = memOf d := by
  unfold svcWrite
  grind -ring -linarith -lia -ac -order [memOf]
theorem commitHigh_mem (d : Device) (src : Src) (lo : Nat) (v : Word) :
    memOf (commitHigh d src lo v) = memOf d := by
  unfold commitHigh toSentinel
  grind -ring -linarith -lia -ac -order [offsIncCommit_mem, onWake_mem, rateIncCommit_mem, memOf]
theorem badAccess_mem (d : Device) (src : Src) (a : Nat) :
    memOf (badAccess d src a) = memOf d := by
  unfold badAccess
  grind -ring -linarith -lia -ac -order [glbErr_mem, memOf]
theorem unmappedAccess_mem (d : Device) (src : Src) (a : Nat) :
    memOf (unmappedAccess d src a) = memOf d := by
  unfold unmappedAccess
  grind -ring -linarith -lia -ac -order [glbErr_mem, memOf]
theorem readAccess_mem (d : Device) (src : Src) (a : Nat) :
    memOf (readAccess d src a).2.2 = memOf d := by
  unfold readAccess
  grind -ring -linarith -lia -ac -order [readReg_mem, unmappedAccess_mem, memOf]
theorem localRead_mem (d : Device) (src : Src) (a bytes : Nat) :
    memOf (localRead d src a bytes) = memOf d := by
  unfold localRead
  grind -ring -linarith -lia -ac -order [answerWord_mem, badAccess_mem, readAccess_mem, memOf]
theorem readMany_mem (d : Device) (src : Src) (a n : Nat) :
    memOf (readMany d src a n).2 = memOf d := by
  induction n generalizing d a with
  | zero => rfl
  | succ m ih => unfold readMany; grind -ring -linarith -lia -ac -order [readAccess_mem]
theorem accessWait_mem (d : Device) (x : Access) :
    memOf (accessWait d x) = memOf d := by
  unfold accessWait
  grind -ring -linarith -lia -ac -order [memOf]
theorem tunnelCell_mem (d : Device) (dst : BitVec 10) (echo : BitVec 16) (status : BitVec 8) (payload : List Byte) :
    memOf (tunnelCell d dst echo status payload) = memOf d := by
  unfold tunnelCell
  grind -ring -linarith -lia -ac -order [newCell_mem, queueOut_mem, memOf]
theorem tunnelFrame_mem (d : Device) (dst : BitVec 10) (echo : BitVec 16) (f : List Byte) :
    memOf (tunnelFrame d dst echo f) = memOf d := by
  unfold tunnelFrame
  grind -ring -linarith -lia -ac -order [tunnelCell_mem, memOf, foldl_mem, forChans_mem]
theorem nspReply_mem (d : Device) (o : NspFrom) (echo : BitVec 16) (f : List Byte) :
    memOf (nspReply d o echo f) = memOf d := by
  unfold nspReply
  grind -ring -linarith -lia -ac -order [tunnelFrame_mem, memOf]
theorem status_mem (d : Device) (s : Nat) :
    memOf (status d s).2 = memOf d := by
  unfold status
  grind -ring -linarith -lia -ac -order [memOf]
theorem nspRefused_mem (d : Device) (o : NspFrom) (q : NspReq) (s : Nat) :
    memOf (nspRefused d o q s).2 = memOf d := by
  unfold nspRefused
  grind -ring -linarith -lia -ac -order [badAccess_mem, status_mem, memOf]
theorem nspReadMany_mem (d : Device) (src : Src) (a n : Nat) :
    memOf (nspReadMany d src a n).2 = memOf d := by
  induction n generalizing d a with
  | zero => rfl
  | succ m ih => unfold nspReadMany; grind -ring -linarith -lia -ac -order [readAccess_mem, unmappedAccess_mem]
theorem nspSend_mem (d : Device) :
    memOf (nspSend d) = memOf d := by
  unfold nspSend
  grind -ring -linarith -lia -ac -order [sendRequest_mem, memOf]
theorem nspBegin_mem (d : Device) (code : Byte) (q : NspReq) (a : BitVec 41) (todo : List Word) :
    memOf (nspBegin d code q a todo).2 = memOf d := by
  unfold nspBegin
  grind -ring -linarith -lia -ac -order [nspSend_mem, status_mem, memOf]
theorem nspRead_mem (d : Device) (o : NspFrom) (q : NspReq) :
    memOf (nspRead d o q).2 = memOf d := by
  unfold nspRead
  grind -ring -linarith -lia -ac -order [nspBegin_mem, nspReadMany_mem, nspRefused_mem, status_mem, memOf]
theorem busyWith_mem (d : Device) (x : Session) :
    memOf (busyWith d x).2 = memOf d := by
  unfold busyWith
  grind -ring -linarith -lia -ac -order [memOf]
theorem endSession_mem (d : Device) :
    memOf (endSession d) = memOf d := by
  unfold endSession
  grind -ring -linarith -lia -ac -order [updateEvent_mem, memOf]
theorem flashFails_mem (d : Device) :
    memOf (flashFails d) = memOf d := by
  unfold flashFails
  grind -ring -linarith -lia -ac -order [memOf]
theorem nspPing_mem (d : Device) (_o : NspFrom) (_q : NspReq) :
    memOf (nspPing d _o _q).2 = memOf d := by
  unfold nspPing
  grind -ring -linarith -lia -ac -order [memOf]
theorem refusedClose_mem (d : Device) (o : NspFrom) (code : Byte) :
    memOf (refusedClose d o code) = memOf d := by
  unfold refusedClose
  grind -ring -linarith -lia -ac -order [endSession_mem, memOf]
theorem dropPartial_mem (d : Device) (n : BitVec 10) :
    memOf (dropPartial d n) = memOf d := by
  unfold dropPartial
  grind -ring -linarith -lia -ac -order [memOf]
theorem formDone_mem (d : Device) (status : Nat) (data : List Word) :
    memOf (formDone d status data) = memOf d := by
  unfold formDone
  grind -ring -linarith -lia -ac -order [formAlone_mem, formAnswer_mem, readPartner_mem, splitAnswer_mem, status_mem, memOf]
theorem checkDone_mem (d : Device) (seq : BitVec 16) (status : Nat) :
    memOf (checkDone d seq status) = memOf d := by
  unfold checkDone
  grind -ring -linarith -lia -ac -order [checkAnswered_mem, checkFailed_mem, status_mem, memOf]
theorem noteCast_mem (d : Device) (c : RCell) :
    memOf (noteCast d c) = memOf d := by
  unfold noteCast
  grind -ring -linarith -lia -ac -order [memOf]
theorem ownerResetArrived_mem (d : Device) (at_ : Side) (c : RCell) :
    memOf (ownerResetArrived d at_ c) = memOf d := by
  unfold ownerResetArrived
  grind -ring -linarith -lia -ac -order [endSession_mem, forward_mem, noteCast_mem, ownerGone_mem, tokenCheck_mem, memOf]
theorem setDrop_mem (d : Device) (s : Side) (cs : List RCell) :
    memOf (setDrop d s cs) = memOf d := by
  unfold setDrop
  grind -ring -linarith -lia -ac -order [memOf]
theorem refusePart_mem (d : Device) (s : Side) (c : RCell) :
    memOf (refusePart d s c) = memOf d := by
  unfold refusePart
  grind -ring -linarith -lia -ac -order [dropPartial_mem, nspRefused_mem, sendResponse_mem, setDrop_mem, memOf]
theorem dropFull_mem (d : Device) (s : Side) (c : RCell) :
    memOf (dropFull d s c) = memOf d := by
  unfold dropFull
  grind -ring -linarith -lia -ac -order [onPort_mem, refusePart_mem, sendResponse_mem, memOf]
theorem beginsFrame_mem (d : Device) (c : RCell) :
    memOf (beginsFrame d c) = memOf d := by
  unfold beginsFrame
  grind -ring -linarith -lia -ac -order [nspRefused_mem, memOf]
theorem intoDrop_mem (d : Device) (s : Side) (c : RCell) :
    memOf (intoDrop d s c) = memOf d := by
  unfold intoDrop
  grind -ring -linarith -lia -ac -order [beginsFrame_mem, dropFull_mem, returnCell_mem, setDrop_mem, memOf]
theorem readCells_mem (d : Device) (s : Side) (c : RCell) (status : Nat) (ws : List Word) :
    memOf (readCells d s c status ws) = memOf d := by
  unfold readCells
  grind -ring -linarith -lia -ac -order [sendResponse_mem, status_mem, memOf, foldl_mem, forChans_mem]
theorem malformed_mem (d : Device) (c : RCell) :
    memOf (malformed d c) = memOf d := by
  unfold malformed
  split
  · exact badAccess_mem _ _ _
  · rfl
theorem serveRead_mem (d : Device) (s : Side) (c : RCell) :
    memOf (serveRead d s c) = memOf d := by
  have h := readMany_mem d (.ring c.src) (offsetField c) (wordCount c)
  unfold serveRead
  split
  · exact (sendResponse_mem _ _ _ _ _ _).trans (malformed_mem _ _)
  · generalize readMany d (.ring c.src) (offsetField c) (wordCount c) = p at *
    obtain ⟨ws, t⟩ := p
    exact (readCells_mem _ _ _ _ _).trans h
theorem serveLock_mem (d : Device) (s : Side) (c : RCell) :
    memOf (serveLock d s c) = memOf d := by
  unfold serveLock
  grind -ring -linarith -lia -ac -order [lockOp_mem, sendResponse_mem, memOf]
theorem bufFree_mem (d : Device) (s : Side) :
    memOf (bufFree d s) = memOf d := by
  unfold bufFree
  grind -ring -linarith -lia -ac -order [memOf]
theorem restartLeaves_mem (d : Device) (c : RCell) :
    memOf (restartLeaves d c) = memOf d := by
  unfold restartLeaves
  grind -ring -linarith -lia -ac -order [memOf]
theorem slotFree_mem (d : Device) (c : RCell) :
    memOf (slotFree d c) = memOf d := by
  unfold slotFree
  grind -ring -linarith -lia -ac -order [memOf]
theorem egressKeep_mem (d : Device) (s : Side) (c : RCell) :
    memOf (egressKeep d s c) = memOf d := by
  unfold egressKeep
  grind -ring -linarith -lia -ac -order [restartLeaves_mem, setPdReq_mem, slotFree_mem, memOf]
theorem leaveBy_mem (d : Device) (s : Side) (c : RCell) :
    memOf (leaveBy d s c) = memOf d := by
  unfold leaveBy
  grind -ring -linarith -lia -ac -order [putLane_mem, memOf]
theorem egress_mem (d : Device) (s : Side) :
    memOf (egress d s) = memOf d := by
  unfold egress
  grind -ring -linarith -lia -ac -order [bufFree_mem, egressKeep_mem, leaveBy_mem, restartLeaves_mem, slotFree_mem, memOf]
theorem takeFc_mem (d : Device) (n : ChanNo) (tec : BitVec 9) (rec : BitVec 8) (st : FcSt) :
    memOf (takeFc d n tec rec st) = memOf d := by
  unfold takeFc
  grind -ring -linarith -lia -ac -order [fcSet_mem, onFe_mem, memOf]
theorem takeBallot_mem (d : Device) (n : ChanNo) (phase : BalPh) (number : BitVec 8) (windowEnd descentEnd : Raw) (sleepOrder : Bool) :
    memOf (takeBallot d n phase number windowEnd descentEnd sleepOrder) = memOf d := by
  unfold takeBallot
  grind -ring -linarith -lia -ac -order [lineRequest_mem, onSlp_mem, memOf]
theorem takeHoldlog_mem (d : Device) (n : ChanNo) (i : Nat) (e : HoldEnt) :
    memOf (takeHoldlog d n i e) = memOf d := by
  unfold takeHoldlog
  grind -ring -linarith -lia -ac -order [onSlp_mem, memOf]
theorem takeContext_mem (d : Device) (k : EngNo) (c : CtxNo) (regs : Vector Word 16) :
    memOf (takeContext d k c regs) = memOf d := by
  unfold takeContext
  grind -ring -linarith -lia -ac -order [onEng_mem, memOf]
theorem takeEpoch_mem (d : Device) (pairEpoch stEpoch : BitVec 8) (castled : BitVec 64) :
    memOf (takeEpoch d pairEpoch stEpoch castled) = memOf d := by
  unfold takeEpoch
  grind -ring -linarith -lia -ac -order [takeChan_mem, memOf, foldl_mem, forChans_mem]
theorem takeResync_mem (d : Device) (no : BitVec 8) :
    memOf (takeResync d no) = memOf d := by
  unfold takeResync
  grind -ring -linarith -lia -ac -order [stepIn_mem, memOf]
theorem mrxWait_mem (d : Device) (m : MirMsg) :
    memOf (mrxWait d m) = memOf d := by
  unfold mrxWait
  grind -ring -linarith -lia -ac -order [memOf]
theorem resyncGo_mem (d : Device) :
    memOf (resyncGo d) = memOf d := by
  unfold resyncGo
  grind -ring -linarith -lia -ac -order [queueResync_mem, memOf]
theorem turn_mem (d : Device) (k : EngNo) (c : CtxNo) (w : Word) (f : Device → Device) (h : ∀ d, memOf (f d) = memOf d) :
    memOf (turn d k c w f) = memOf d := by
  unfold turn
  simp only []
  (repeat' split) <;> simp only [h, onEng_mem, ctxFault_mem]

theorem illegalTurn_mem (d : Device) (k : EngNo) (c : CtxNo) :
    memOf (illegalTurn d k c) = memOf d := by
  have h : ∀ w, memOf (turn d k c w id) = memOf d := fun w => turn_mem d k c w id (fun _ => rfl)
  unfold illegalTurn
  simp only []
  split
  · rfl
  · exact h _
theorem regOp_mem (d : Device) (k : EngNo) (c : CtxNo) (op : Nat) (rd ra rb : GReg) (f : Word → Word → Word) :
    memOf (regOp d k c op rd ra rb f) = memOf d := by
  exact turn_mem _ _ _ _ _ (fun _ => setAndRetire_mem _ _ _ _ _)
theorem immOp_mem (d : Device) (k : EngNo) (c : CtxNo) (op : Nat) (rd ra : GReg) (imm : Nat) (f : Word → Word) :
    memOf (immOp d k c op rd ra imm f) = memOf d := by
  exact turn_mem _ _ _ _ _ (fun _ => setAndRetire_mem _ _ _ _ _)
theorem regBranch_mem (d : Device) (k : EngNo) (c : CtxNo) (op : Nat) (ra rb : GReg) (target : BitVec 10) (f : Word → Word → Bool) :
    memOf (regBranch d k c op ra rb target f) = memOf d := by
  exact turn_mem _ _ _ _ _ (fun _ => branch_mem _ _ _ _ _)
theorem immBranch_mem (d : Device) (k : EngNo) (c : CtxNo) (op : Nat) (ra : GReg) (imm : BitVec 8) (target : BitVec 10) (f : Word → Word → Bool) :
    memOf (immBranch d k c op ra imm target f) = memOf d := by
  exact turn_mem _ _ _ _ _ (fun _ => branch_mem _ _ _ _ _)
theorem waitTurn_mem (d : Device) (k : EngNo) (c : CtxNo) (ready : Bool) (w : CtxWait) :
    memOf (waitTurn d k c ready w) = memOf d := by
  unfold waitTurn
  grind -ring -linarith -lia -ac -order [retire_mem, stall_mem, memOf]
theorem setPair_mem (d : Device) (k : EngNo) (c : CtxNo) (rd : GReg) (v : BitVec 64) :
    memOf (setPair d k c rd v) = memOf d := by
  unfold setPair
  grind -ring -linarith -lia -ac -order [setGreg_mem, memOf]
theorem postCell_mem (d : Device) (k : EngNo) (rb rc : Word) (ws : List Word) :
    memOf (postCell d k rb rc ws) = memOf d := by
  unfold postCell
  grind -ring -linarith -lia -ac -order [newCell_mem, onEng_mem, queueOut_mem, memOf]
theorem pinRxWord_mem (d : Device) (p : PinNo) (w : Word) :
    memOf (pinRxWord d p w) = memOf d := by
  unfold pinRxWord
  grind -ring -linarith -lia -ac -order [onPin_mem, memOf]
theorem pinTxLoad_mem (d : Device) (p : PinNo) :
    memOf (pinTxLoad d p) = memOf d := by
  unfold pinTxLoad
  grind -ring -linarith -lia -ac -order [onPin_mem, memOf]
theorem pinTxWordEnd_mem (d : Device) (p : PinNo) :
    memOf (pinTxWordEnd d p) = memOf d := by
  unfold pinTxWordEnd
  grind -ring -linarith -lia -ac -order [onPin_mem, memOf]
end Sys2Proof.Machine
end

