-- ==== Sys2Proof/Laws/Stores.lean ====
section
/-! SUPPORT. The canonical form of the stores: one lemma per shared operation that may write the SRAM or the flash,
`<operation>_wf`: from stores in canonical form it leaves stores in canonical form. -/

/- One law after another, since their tactics run side by side take more memory than they save time. -/
set_option Elab.async false

namespace Sys2Proof.Machine
theorem sramSetWord_wf (d : Device) (a : Nat) (w : Word) (endMark : Bool) (h_ : storesWf d = true) :
    storesWf (sramSetWord d a w endMark) = true := by
  exact storesWf_sramSetWord a w endMark h_
theorem sramPutWord_wf (d : Device) (a : Nat) (w : Word) (h_ : storesWf d = true) :
    storesWf (sramPutWord d a w) = true := by
  unfold sramPutWord
  grind -ring -linarith -lia -ac -order [storesWf_memOf, sramSetWord_wf, memOf]
theorem placeWords_wf (d : Device) (n : ChanNo) (ws : List Word) (h_ : storesWf d = true) :
    storesWf (placeWords d n ws) = true := by
  unfold placeWords
  grind -ring -linarith -lia -ac -order [storesWf_memOf, onJn_mem, sramSetWord_wf, memOf, foldl_wf, forChans_wf]
theorem showEntry_wf (d : Device) (n : ChanNo) (ws : List Word) (h_ : storesWf d = true) :
    storesWf (showEntry d n ws) = true := by
  unfold showEntry
  grind -ring -linarith -lia -ac -order [storesWf_memOf, onJn_mem, placeWords_wf, memOf]
theorem makeVisible_wf (d : Device) (n : ChanNo) (ws : List Word) (h_ : storesWf d = true) :
    storesWf (makeVisible d n ws) = true := by
  unfold makeVisible
  grind -ring -linarith -lia -ac -order [storesWf_memOf, showEntry_wf, takeSeq_mem, memOf]
theorem writeMarker_wf (d : Device) (n : ChanNo) (ws : List Word) (h_ : storesWf d = true) :
    storesWf (writeMarker d n ws) = true := by
  unfold writeMarker
  grind -ring -linarith -lia -ac -order [storesWf_memOf, onJn_mem, showEntry_wf, memOf]
theorem loseOldest_wf (d : Device) (n : ChanNo) (h_ : storesWf d = true) :
    storesWf (loseOldest d n) = true := by
  unfold loseOldest
  grind -ring -linarith -lia -ac -order [storesWf_memOf, countLoss_mem, onJn_mem, writeMarker_wf, memOf]
theorem writeItem_wf (d : Device) (n : ChanNo) (it : JItem) (rest : List JItem) (h_ : storesWf d = true) :
    storesWf (writeItem d n it rest) = true := by
  unfold writeItem
  grind -ring -linarith -lia -ac -order [storesWf_memOf, countLoss_mem, freeEcho_mem, loseOldest_wf, makeVisible_wf, onJn_mem, writeMarker_wf, memOf]
theorem writeStaged_wf (d : Device) (n : ChanNo) (h_ : storesWf d = true) :
    storesWf (writeStaged d n) = true := by
  unfold writeStaged withBank
  grind -ring -linarith -lia -ac -order [storesWf_memOf, turnTo_mem, useBank_mem, writeItem_wf, memOf]
theorem lqSetWord_wf (d : Device) (n : ChanNo) (i : LqIdx) (w : Nat) (v : Word) (h_ : storesWf d = true) :
    storesWf (lqSetWord d n i w v) = true := by
  unfold lqSetWord
  grind -ring -linarith -lia -ac -order [storesWf_memOf, lqRefetch_mem, sramSetWord_wf, memOf]
theorem lqPutWord_wf (d : Device) (n : ChanNo) (i : LqIdx) (w : Nat) (v : Word) (h_ : storesWf d = true) :
    storesWf (lqPutWord d n i w v) = true := by
  unfold lqPutWord
  grind -ring -linarith -lia -ac -order [storesWf_memOf, lqSetWord_wf, mirrorChan_mem, setAbroad_mem, memOf]
theorem buildBallot_wf (d : Device) (n : ChanNo) (i : LqIdx) (ident dlc : Nat) (data : Word) (h_ : storesWf d = true) :
    storesWf (buildBallot d n i ident dlc data) = true := by
  unfold buildBallot
  grind -ring -linarith -lia -ac -order [storesWf_memOf, lqPutWord_wf, memOf]
theorem commitBallot_wf (d : Device) (n : ChanNo) (fr : BalFrame) (h_ : storesWf d = true) :
    storesWf (commitBallot d n fr) = true := by
  unfold commitBallot
  grind -ring -linarith -lia -ac -order [storesWf_memOf, buildBallot_wf, commitEntry_mem, onSlp_mem, memOf]
theorem ballotFrame_wf (d : Device) (n : ChanNo) (fr : BalFrame) (h_ : storesWf d = true) :
    storesWf (ballotFrame d n fr) = true := by
  unfold ballotFrame
  grind -ring -linarith -lia -ac -order [storesWf_memOf, awaitAll_mem, commitBallot_wf, onSlp_mem, useAll_mem, memOf]
theorem translateLaunch_wf (d : Device) (n : ChanNo) (i : LqIdx) (h_ : storesWf d = true) :
    storesWf (translateLaunch d n i) = true := by
  unfold translateLaunch
  grind -ring -linarith -lia -ac -order [storesWf_memOf, lqSetWord_wf, setAbroad_mem, memOf]
theorem windowPut_wf (d : Device) (n : ChanNo) (i : LqIdx) (w : Nat) (v : Word) (h_ : storesWf d = true) :
    storesWf (windowPut d n i w v) = true := by
  unfold windowPut
  grind -ring -linarith -lia -ac -order [storesWf_memOf, lqPutWord_wf, onLq_mem, memOf]
theorem windowWrite_wf (d : Device) (n : ChanNo) (w : Nat) (v : Word) (h_ : storesWf d = true) :
    storesWf (windowWrite d n w v) = true := by
  unfold windowWrite
  grind -ring -linarith -lia -ac -order [storesWf_memOf, windowPut_wf, memOf]
theorem portData_wf (d : Device) (k : EngNo) (c : CtxNo) (h_ : storesWf d = true) :
    storesWf (portData d k c).2 = true := by
  unfold portData
  grind -ring -linarith -lia -ac -order [storesWf_memOf, memRead_mem, popWord_mem, sramPutWord_wf, startCancel_mem, windowPut_wf, memOf]
theorem portServe_wf (d : Device) (k : EngNo) (c : CtxNo) (h_ : storesWf d = true) :
    storesWf (portServe d k c) = true := by
  unfold portServe
  grind -ring -linarith -lia -ac -order [storesWf_memOf, onEng_mem, portData_wf, wake_mem, memOf]
theorem portPhase_wf (d : Device) (k : EngNo) (c : CtxNo) (h_ : storesWf d = true) :
    storesWf (portPhase d k c) = true := by
  unfold portPhase
  grind -ring -linarith -lia -ac -order [storesWf_memOf, portAsk_mem, portServe_wf, releaseBank_mem, turnTo_mem, useBank_mem, memOf]
theorem portTurn_wf (d : Device) (k : EngNo) (c : CtxNo) (h_ : storesWf d = true) :
    storesWf (portTurn d k c) = true := by
  unfold portTurn
  grind -ring -linarith -lia -ac -order [storesWf_memOf, portPhase_wf, wake_mem, memOf]
theorem stallOver_wf (d : Device) (k : EngNo) (c : CtxNo) (h_ : storesWf d = true) :
    storesWf (stallOver d k c) = true := by
  unfold stallOver
  grind -ring -linarith -lia -ac -order [storesWf_memOf, commitTurn_mem, portTurn_wf, wake_mem, memOf]
theorem answerOffer_wf (d : Device) (n : ChanNo) (f : Frame) (h_ : storesWf d = true) :
    storesWf (answerOffer d n f) = true := by
  unfold answerOffer
  grind -ring -linarith -lia -ac -order [storesWf_memOf, ballotFrame_wf, memOf]
theorem frameBallot_wf (d : Device) (n : ChanNo) (f : Frame) (stamp : Raw) (h_ : storesWf d = true) :
    storesWf (frameBallot d n f stamp) = true := by
  unfold frameBallot
  grind -ring -linarith -lia -ac -order [storesWf_memOf, answerOffer_wf, ballotEnd_mem, dropPreArm_mem, followCommit_mem, onSlp_mem, memOf]
theorem rxValid_wf (d : Device) (n : ChanNo) (f : Frame) (h_ : storesWf d = true) :
    storesWf (rxValid d n f) = true := by
  unfold rxValid
  grind -ring -linarith -lia -ac -order [storesWf_memOf, followedEnds_mem, frameBallot_wf, frameEnds_mem, onWake_mem, receiveCount_mem, stageFrame_mem, witness_mem, memOf]
theorem restoreBallot_wf (d : Device) (x : BallotSave) (h_ : storesWf d = true) :
    storesWf (restoreBallot d x) = true := by
  unfold restoreBallot
  grind -ring -linarith -lia -ac -order [storesWf_memOf, ballotFrame_wf, lqPut_mem, mirrorBallot_mem, onSlp_mem, onWake_mem, memOf]
theorem holdTimeout_wf (d : Device) (h_ : storesWf d = true) :
    storesWf (holdTimeout d) = true := by
  unfold holdTimeout
  grind -ring -linarith -lia -ac -order [storesWf_memOf, onEng_mem, restoreBallot_wf, setResult_mem, memOf, foldl_wf, forChans_wf]
theorem ballotGo_wf (d : Device) (n : ChanNo) (h_ : storesWf d = true) :
    storesWf (ballotGo d n) = true := by
  unfold ballotGo
  grind -ring -linarith -lia -ac -order [storesWf_memOf, ballotFrame_wf, mirrorBallot_mem, onSlp_mem, wakeSleep_mem, memOf]
theorem windowDecision_wf (d : Device) (n : ChanNo) (h_ : storesWf d = true) :
    storesWf (windowDecision d n) = true := by
  unfold windowDecision
  grind -ring -linarith -lia -ac -order [storesWf_memOf, ballotEnd_mem, ballotFrame_wf, mirrorBallot_mem, onSlp_mem, updateLog_mem, memOf]
theorem reballotOp_wf (d : Device) (n : ChanNo) (h_ : storesWf d = true) :
    storesWf (reballotOp d n) = true := by
  unfold reballotOp
  grind -ring -linarith -lia -ac -order [storesWf_memOf, ballotGo_wf, memOf]
theorem flashProgram_wf (d : Device) (a : Nat) (bs : List Byte) (h_ : storesWf d = true) :
    storesWf (flashProgram d a bs) = true := by
  induction bs generalizing d a with
  | nil => exact h_
  | cons b r ih =>
    unfold flashProgram
    apply ih
    simp only [storesWf, Bool.and_eq_true] at *
    exact ⟨h_.1, tabWf_tabSet _ _ h_.2⟩
theorem flashErase_wf (d : Device) (sector : Nat) (h_ : storesWf d = true) :
    storesWf (flashErase d sector) = true := by
  simp only [storesWf, flashErase, Bool.and_eq_true] at *
  exact ⟨h_.1, tabWf_filter _ h_.2⟩
theorem slotProgram_wf (d : Device) (b : Bool) (o : Nat) (v : Word) (h_ : storesWf d = true) :
    storesWf (slotProgram d b o v) = true := by
  unfold slotProgram
  grind -ring -linarith -lia -ac -order [storesWf_memOf, flashProgram_wf, memOf]
theorem setSlotMark_wf (d : Device) (b : Bool) (o : Nat) (h_ : storesWf d = true) :
    storesWf (setSlotMark d b o) = true := by
  unfold setSlotMark
  grind -ring -linarith -lia -ac -order [storesWf_memOf, slotProgram_wf, memOf]
theorem failSlot_wf (d : Device) (b : Bool) (cause : Nat) (h_ : storesWf d = true) :
    storesWf (failSlot d b cause) = true := by
  unfold failSlot
  grind -ring -linarith -lia -ac -order [storesWf_memOf, setSlotMark_wf, slotProgram_wf, memOf]
theorem failAndRestart_wf (d : Device) (b : Bool) (cause : Nat) (h_ : storesWf d = true) :
    storesWf (failAndRestart d b cause) = true := by
  unfold failAndRestart
  grind -ring -linarith -lia -ac -order [storesWf_memOf, deviceReset_mem, failSlot_wf, onSvc_mem, memOf]
theorem ledgerPut_wf (d : Device) (c : Bool) (l : Ledger) (h_ : storesWf d = true) :
    storesWf (ledgerPut d c l) = true := by
  simp only [storesWf, Bool.and_eq_true] at *
  unfold ledgerPut
  cases c <;> exact h_
theorem ledgerBegin_wf (d : Device) (h_ : storesWf d = true) :
    storesWf (ledgerBegin d) = true := by
  unfold ledgerBegin
  grind -ring -linarith -lia -ac -order [storesWf_memOf, ledgerPut_wf, memOf]
theorem ledgerConfirm_wf (d : Device) (c : Bool) (h_ : storesWf d = true) :
    storesWf (ledgerConfirm d c) = true := by
  unfold ledgerConfirm
  grind -ring -linarith -lia -ac -order [storesWf_memOf, ledgerPut_wf, memOf]
theorem ledgerWritten_wf (d : Device) (snap : Tab Word) (h_ : storesWf d = true) :
    storesWf (ledgerWritten d snap) = true := by
  unfold ledgerWritten
  grind -ring -linarith -lia -ac -order [storesWf_memOf, ledgerConfirm_wf, ledgerPut_wf, ledgerShow_mem, memOf]
theorem standbyChan_wf (d : Device) (n : ChanNo) (h_ : storesWf d = true) :
    storesWf (standbyChan d n) = true := by
  unfold standbyChan
  grind -ring -linarith -lia -ac -order [storesWf_memOf, ballotGo_wf, lineRequest_mem, memOf]
theorem standbyInForce_wf (d : Device) (h_ : storesWf d = true) :
    storesWf (standbyInForce d) = true := by
  unfold standbyInForce
  grind -ring -linarith -lia -ac -order [storesWf_memOf, inhCheck_mem, standbyChan_wf, memOf, foldl_wf, forChans_wf]
theorem standbyRequest_wf (d : Device) (h_ : storesWf d = true) :
    storesWf (standbyRequest d) = true := by
  unfold standbyRequest
  grind -ring -linarith -lia -ac -order [storesWf_memOf, ledgerBegin_wf, standbyInForce_wf, memOf]
theorem ledgerDone_wf (d : Device) (h_ : storesWf d = true) :
    storesWf (ledgerDone d) = true := by
  unfold ledgerDone
  grind -ring -linarith -lia -ac -order [storesWf_memOf, ledgerBegin_wf, ledgerWritten_wf, standbyInForce_wf, memOf]
theorem failTrial_wf (d : Device) (b : Bool) (h_ : storesWf d = true) :
    storesWf (failTrial d b) = true := by
  unfold failTrial
  split
  · exact storesWf_keep (onSvc_mem _ _) (failSlot_wf _ _ _ h_)
  · exact h_
theorem numberTrial_wf (d : Device) (h_ : storesWf d = true) : storesWf (numberTrial d) = true := h_
theorem startTrial_wf (d : Device) (b : Bool) (h_ : storesWf d = true) :
    storesWf (startTrial d b) = true := by
  unfold startTrial
  grind -ring -linarith -lia -ac -order [storesWf_memOf, numberTrial_wf, setSlotMark_wf, memOf]
theorem confirmOwn_wf (d : Device) (h_ : storesWf d = true) :
    storesWf (confirmOwn d) = true := by
  unfold confirmOwn
  grind -ring -linarith -lia -ac -order [storesWf_memOf, ledgerConfirm_wf, memOf]
theorem ownCheck_wf (d : Device) (b : Bool) (h_ : storesWf d = true) :
    storesWf (ownCheck d b) = true := by
  unfold ownCheck
  grind -ring -linarith -lia -ac -order [storesWf_memOf, failAndRestart_wf, takeFree_mem, memOf]
theorem imageTried_wf (d : Device) (b : Bool) (tick : Nat) (v : Option LoadResult × List Section) (h_ : storesWf d = true) :
    storesWf (if v.1.isSome then failAndRestart d b 3 else ownCheck (imageStep d b v.2 tick) b) = true := by
  split
  · exact failAndRestart_wf _ _ _ h_
  · exact ownCheck_wf _ _ (storesWf_keep (imageStep_mem _ _ _ _) h_)
theorem runImage_wf (d : Device) (b : Bool) (tick : Nat) (h_ : storesWf d = true) :
    storesWf (runImage d b tick) = true := by
  exact imageTried_wf d b tick (validate d (slotImage d b) (slotImage d b).length false true) h_
theorem slotStarts_wf (d : Device) (b trial : Bool) (h_ : storesWf d = true) :
    storesWf (slotStarts d b trial) = true := by
  unfold slotStarts
  grind -ring -linarith -lia -ac -order [storesWf_memOf, lanesStart_mem, onSvc_mem, startTrial_wf, memOf]
theorem runSlot_wf (d : Device) (b trial : Bool) (tick : Nat) (h_ : storesWf d = true) :
    storesWf (runSlot d b trial tick) = true := by
  unfold runSlot
  grind -ring -linarith -lia -ac -order [storesWf_memOf, slotStarts_wf, memOf]
theorem ledgerStep_wf (d t : Device) (ss : List Section) (h_ : storesWf d = true) (h : ledgerStep d ss = some t) : storesWf t = true := by
  have hc := confirmOwn_wf d h_
  unfold ledgerStep at h
  generalize confirmOwn d = x at *
  dsimp only at h
  cases hp : ledgerPick x with
  | some c =>
    simp only [hp, Option.some.injEq] at h
    subst h
    have hl := storesWf_keep (loadLedger_mem x c) hc
    split
    · exact hl
    · exact storesWf_keep (tagDefaults_mem _ _) hl
  | none =>
    simp only [hp] at h
    have ht := storesWf_keep (tagDefaults_mem x ss) hc
    split at h
    · cases h
    · simp only [Option.some.injEq] at h
      subst h
      split
      · exact ht
      · exact ledgerBegin_wf _ ht

theorem ledgerTaken_wf (d : Device) (b : Bool) (x : Option Device) (h_ : storesWf d = true)
    (hx : ∀ t, x = some t → storesWf t = true) : storesWf (ledgerTaken d b x) = true := by
  cases x with
  | none => exact failAndRestart_wf _ _ _ h_
  | some t => exact (storesWf_memOf (takeStation_mem _)).trans (hx t rfl)

theorem bootStep_wf (d : Device) (h_ : storesWf d = true) :
    storesWf (bootStep d) = true := by
  unfold bootStep
  split
  · exact h_
  · split
    · exact h_
    · split
      · exact ledgerTaken_wf _ _ _ h_ (fun t ht => ledgerStep_wf _ t _ h_ ht)
      · exact runImage_wf _ _ _ h_
theorem startUp_wf (d : Device) (recoverLow : Bool) (tick : Nat) (h_ : storesWf d = true) :
    storesWf (startUp d recoverLow tick) = true := by
  have h1 : storesWf (flashProbed (latticeUp (forChans d (List.finRange 64) (fun d n => setToken d n false)))) = true :=
    storesWf_keep (flashProbed_mem _) (storesWf_keep (latticeUp_mem _)
      (storesWf_keep (forChans_mem _ _ _ (fun d n => setToken_mem d n false)) h_))
  unfold startUp
  generalize flashProbed (latticeUp (forChans d (List.finRange 64) (fun d n => setToken d n false))) = x at *
  have h2 := failTrial_wf _ true (failTrial_wf _ false h1)
  dsimp only
  split
  · exact storesWf_keep (onSvc_mem _ _) h1
  · cases slotChoice (failTrial (failTrial x false) true) with
    | none => exact storesWf_keep (onSvc_mem _ _) h2
    | some p => exact runSlot_wf _ _ _ _ h2
theorem stbyWrite_wf (d : Device) (v : Word) (h_ : storesWf d = true) :
    storesWf (stbyWrite d v) = true := by
  unfold stbyWrite
  grind -ring -linarith -lia -ac -order [storesWf_memOf, standbyCancel_mem, standbyRequest_wf, memOf]
theorem tagCtrl_wf (d : Device) (v : Word) (h_ : storesWf d = true) :
    storesWf (tagCtrl d v) = true := by
  unfold tagCtrl
  grind -ring -linarith -lia -ac -order [storesWf_memOf, ledgerBegin_wf, memOf]
theorem glbWrite_wf (d : Device) (src : Src) (o : Nat) (v : Word) (h_ : storesWf d = true) :
    storesWf (glbWrite d src o v) = true := by
  unfold glbWrite
  grind -ring -linarith -lia -ac -order [storesWf_memOf, deviceReset_mem, sentWrite_mem, stbyWrite_wf, tagCtrl_wf, memOf]
theorem lqWrite_wf (d : Device) (n : ChanNo) (o : Nat) (v : Word) (h_ : storesWf d = true) :
    storesWf (lqWrite d n o v) = true := by
  unfold lqWrite
  grind -ring -linarith -lia -ac -order [storesWf_memOf, cancelWrite_mem, hostCommit_mem, onLq_mem, windowWrite_wf, memOf]
theorem ballotWrite_wf (d : Device) (n : ChanNo) (v : Word) (h_ : storesWf d = true) :
    storesWf (ballotWrite d n v) = true := by
  unfold ballotWrite
  grind -ring -linarith -lia -ac -order [storesWf_memOf, ballotEnd_mem, ballotGo_wf, mirrorLog_mem, onSlp_mem, memOf]
theorem slpWrite_wf (d : Device) (n : ChanNo) (o : Nat) (v : Word) (h_ : storesWf d = true) :
    storesWf (slpWrite d n o v) = true := by
  unfold slpWrite ifLegalCh toSentinel
  grind -ring -linarith -lia -ac -order [storesWf_memOf, ballotWrite_wf, chErr_mem, holdWrite_mem, onSlp_mem, onWake_mem, wakeCfgWrite_mem, memOf]
theorem chWrite_wf (d : Device) (n : ChanNo) (o : Nat) (v : Word) (h_ : storesWf d = true) :
    storesWf (chWrite d n o v) = true := by
  unfold chWrite
  grind -ring -linarith -lia -ac -order [storesWf_memOf, feWrite_mem, jnWrite_mem, lineWrite_mem, lqWrite_wf, slpWrite_wf, memOf]
theorem ite_wf {c : Prop} [Decidable c] {x y : Device} (hx : storesWf x = true) (hy : storesWf y = true) :
    storesWf (if c then x else y) = true := by
  split
  · exact hx
  · exact hy
theorem narrowWrite_wf (d : Device) (src : Src) (a : Nat) (v : Word) (h_ : storesWf d = true) :
    storesWf (narrowWrite d src a v) = true := by
  have hm : ∀ t, memOf t = memOf d → storesWf t = true := fun t h => (storesWf_memOf h).trans h_
  unfold narrowWrite
  refine ite_wf (hm _ (tagWrite_mem _ _ _ _)) ?_
  refine ite_wf (glbWrite_wf _ _ _ _ h_) ?_
  refine ite_wf (hm _ (latWrite_mem _ _ _)) ?_
  refine ite_wf (chWrite_wf _ _ _ _ h_) ?_
  refine ite_wf (hm _ (timWrite_mem _ _ _ _)) ?_
  refine ite_wf (hm _ (rngWrite_mem _ _ _ _)) ?_
  refine ite_wf (hm _ (lckWrite_mem _ _ _ _)) ?_
  refine ite_wf (hm _ (conWrite_mem _ _ _ _)) ?_
  refine ite_wf (hm _ (prWrite_mem _ _ _ _)) ?_
  refine ite_wf (hm _ (meWrite_mem _ _ _ _ _ _)) ?_
  refine ite_wf (hm _ (imgWrite_mem _ _ _ _)) ?_
  refine ite_wf (hm _ (svcWrite_mem _ _ _)) ?_
  exact ite_wf (sramPutWord_wf _ _ _ h_) h_
theorem writeReg_wf (d : Device) (src : Src) (a : Nat) (v : Word) (h_ : storesWf d = true) :
    storesWf (writeReg d src a v) = true := by
  unfold writeReg
  grind -ring -linarith -lia -ac -order [storesWf_memOf, commitHigh_mem, convPut_mem, narrowWrite_wf, stageLow_mem, memOf]
theorem writeAccess_wf (d : Device) (src : Src) (a : Nat) (v : Word) (h_ : storesWf d = true) :
    storesWf (writeAccess d src a v).2 = true := by
  unfold writeAccess
  grind -ring -linarith -lia -ac -order [storesWf_memOf, unmappedAccess_mem, writeReg_wf, memOf]
theorem localWrite_wf (d : Device) (src : Src) (a bytes : Nat) (v : Word) (h_ : storesWf d = true) :
    storesWf (localWrite d src a bytes v) = true := by
  unfold localWrite
  grind -ring -linarith -lia -ac -order [storesWf_memOf, badAccess_mem, writeAccess_wf, memOf]
theorem writeMany_wf (d : Device) (src : Src) (a : Nat) (vs : List Word) (h_ : storesWf d = true) :
    storesWf (writeMany d src a vs).2 = true := by
  induction vs generalizing d a with
  | nil => exact h_
  | cons v r ih =>
    unfold writeMany
    exact ih _ _ (writeAccess_wf _ _ _ _ h_)
theorem accessRun_wf (d : Device) (x : Access) (h_ : storesWf d = true) :
    storesWf (accessRun d x) = true := by
  unfold accessRun
  grind -ring -linarith -lia -ac -order [storesWf_memOf, answerWord_mem, commitEntry_mem, hostCommit_mem, localLock_mem, readAccess_mem, readPop_mem, sramPutWord_wf, windowRead_mem, windowWrite_wf, writeAccess_wf, memOf]
theorem accessStep_wf (d : Device) (x : Access) (h_ : storesWf d = true) :
    storesWf (accessStep d x) = true := by
  unfold accessStep
  grind -ring -linarith -lia -ac -order [storesWf_memOf, accessRun_wf, accessWait_mem, awaitAll_mem, useAll_mem, memOf]
theorem accessGo_wf (d : Device) (xs : List Access) (h_ : storesWf d = true) :
    storesWf (accessGo d xs) = true := by
  induction xs generalizing d with
  | nil => exact h_
  | cons x r ih => exact ih _ (accessStep_wf _ _ h_)
theorem accessKick_wf (d : Device) (h_ : storesWf d = true) :
    storesWf (accessKick d) = true := by
  unfold accessKick
  split
  · exact h_
  · exact accessGo_wf _ _ h_
theorem wordRead_wf (d : Device) (src : Src) (a bytes : Nat) (h_ : storesWf d = true) :
    storesWf (wordRead d src a bytes) = true := by
  unfold wordRead
  grind -ring -linarith -lia -ac -order [storesWf_memOf, accessStep_wf, localRead_mem, memOf]
theorem wordWrite_wf (d : Device) (src : Src) (a bytes : Nat) (v : Word) (h_ : storesWf d = true) :
    storesWf (wordWrite d src a bytes v) = true := by
  unfold wordWrite
  grind -ring -linarith -lia -ac -order [storesWf_memOf, accessStep_wf, localWrite_wf, memOf]
theorem nspWrite_wf (d : Device) (o : NspFrom) (q : NspReq) (h_ : storesWf d = true) :
    storesWf (nspWrite d o q).2 = true := by
  unfold nspWrite
  grind -ring -linarith -lia -ac -order [storesWf_memOf, nspBegin_mem, nspRefused_mem, status_mem, writeMany_wf, memOf]
theorem status_wf (d : Device) (s : Nat) (h_ : storesWf d = true) : storesWf (status d s).2 = true := h_
theorem endSession_wf (d : Device) (h_ : storesWf d = true) : storesWf (endSession d) = true := (storesWf_memOf (endSession_mem d)).trans h_
theorem updateEvent_wf (d : Device) (kind : Nat) (slot : Bool) (cause owner : Nat) (h_ : storesWf d = true) :
    storesWf (updateEvent d kind slot cause owner) = true := (storesWf_memOf (updateEvent_mem d kind slot cause owner)).trans h_
theorem openSession_wf (d : Device) (o : NspFrom) (len : Nat) (h_ : storesWf d = true) :
    storesWf (openSession d o len).2 = true := by
  unfold openSession
  simp only []
  split
  · exact h_
  · split
    · exact endSession_wf _ h_
    · split
      · exact updateEvent_wf _ _ _ _ _ (flashErase_wf d _ h_)
      · exact updateEvent_wf _ _ _ _ _ h_
theorem nspOpen_wf (d : Device) (o : NspFrom) (q : NspReq) (h_ : storesWf d = true) :
    storesWf (nspOpen d o q).2 = true := by
  have go : ∀ (b c : Prop) [Decidable b] [Decidable c] (n : Nat),
      storesWf (if b then status d 0x16 else if c then status d 0x12 else openSession d o n).2 = true := by
    intro b c _ _ n
    split
    · exact h_
    · split
      · exact h_
      · exact openSession_wf _ _ _ h_
  unfold nspOpen
  cases d.svc.session with
  | none => exact go _ _ _
  | some x =>
    by_cases hx : x.owner = ownerOf o
    · simp only [hx, if_true]; exact go _ _ _
    · simp only [hx, if_false]; exact h_
theorem eraseReached_wf (d : Device) (base off len : Nat) (h_ : storesWf d = true) :
    storesWf (eraseReached d base off len) = true := by
  unfold eraseReached
  grind -ring -linarith -lia -ac -order [storesWf_memOf, flashErase_wf, memOf, foldl_wf, forChans_wf]
theorem programChunk_wf (d : Device) (x : Session) (off : Nat) (bs : List Byte) (h_ : storesWf d = true) :
    storesWf (programChunk d x off bs).2 = true := by
  unfold programChunk
  grind -ring -linarith -lia -ac -order [storesWf_memOf, endSession_mem, eraseReached_wf, flashFails_mem, flashProgram_wf, status_mem, memOf]
theorem nspChunk_wf (d : Device) (o : NspFrom) (q : NspReq) (h_ : storesWf d = true) :
    storesWf (nspChunk d o q).2 = true := by
  unfold nspChunk
  simp only []
  (repeat' split) <;> first | exact h_ | exact programChunk_wf _ _ _ _ h_
theorem closeSlot_wf (d : Device) (x : Session) (b : Bool) (h_ : storesWf d = true) :
    storesWf (closeSlot d x b).2 = true := by
  have hm := setSlotMark_wf _ b 32 (slotProgram_wf d b 36 (closeSeq d b) h_)
  unfold closeSlot
  generalize setSlotMark (slotProgram d b 36 (closeSeq d b)) b 32 = e at hm ⊢
  split
  · exact endSession_wf _ h_
  · refine updateEvent_wf _ 2 b 0 _ ?_
    have hk : storesWf (if e.svc.recovery then setSlotMark e b 48 else e) = true := by
      split
      · exact setSlotMark_wf _ _ _ hm
      · exact hm
    exact hk
theorem nspClose_wf (d : Device) (o : NspFrom) (_q : NspReq) (h_ : storesWf d = true) :
    storesWf (nspClose d o _q).2 = true := by
  have hb : ∀ x, storesWf (busyWith d x).2 = true := fun x => storesWf_keep (busyWith_mem d x) h_
  have he : storesWf (endSession d) = true := storesWf_keep (endSession_mem d) h_
  have hs : ∀ t s, storesWf t = true → storesWf (status t s).2 = true := fun t s h => storesWf_keep (status_mem t s) h
  unfold nspClose
  simp only []
  (repeat' split) <;> first
    | with_reducible exact closeSlot_wf _ _ _ h_
    | with_reducible exact hb _
    | with_reducible exact hs _ _ h_
    | with_reducible exact hs _ _ he
    | exact he
theorem commitLedger_wf (d : Device) (h_ : storesWf d = true) :
    storesWf (commitLedger d) = true := by
  unfold commitLedger
  grind -ring -linarith -lia -ac -order [storesWf_memOf, ledgerConfirm_wf, ledgerShow_mem, memOf]
theorem nspCommit_wf (d : Device) (_o : NspFrom) (_q : NspReq) (h_ : storesWf d = true) :
    storesWf (nspCommit d _o _q).2 = true := by
  unfold nspCommit
  grind -ring -linarith -lia -ac -order [storesWf_memOf, commitLedger_wf, flashFails_mem, setSlotMark_wf, status_mem, updateEvent_mem, memOf]
theorem restartAsked_wf (d t : Device) (o : NspFrom) (flags : Nat) (h_ : storesWf d = true) (h : restartAsked d o flags = some t) : storesWf t = true := by
  have hc := (storesWf_memOf (castleOp_mem d)).trans h_
  unfold restartAsked at h
  simp only [] at h
  (repeat' split at h) <;> cases h <;> first | exact h_ | exact hc
theorem selectDo_wf (d : Device) (o : NspFrom) (flags : Nat) (f : Device → Device) (hf : ∀ d, storesWf d = true → storesWf (f d) = true)
    (h_ : storesWf d = true) : storesWf (selectDo d o flags f).2 = true := by
  unfold selectDo
  split
  · exact h_
  · exact hf _ (restartAsked_wf _ _ _ _ h_ ‹_›)
theorem nspSelect_wf (d : Device) (_o : NspFrom) (q : NspReq) (h_ : storesWf d = true) :
    storesWf (nspSelect d _o q).2 = true := by
  have hs : ∀ t s, storesWf t = true → storesWf (status t s).2 = true := fun t s h => storesWf_keep (status_mem t s) h
  have hf : storesWf (flashFails d) = true := storesWf_keep (flashFails_mem d) h_
  unfold nspSelect
  cases d.svc.session with
  | some x => exact storesWf_keep (busyWith_mem d x) h_
  | none =>
    dsimp only
    split
    · cases trialSeconds (leAt q.payload 2 2) with
      | none => exact hs _ _ h_
      | some secs =>
        dsimp only
        split
        · exact hs _ _ h_
        · split
          · exact hs _ _ hf
          · exact selectDo_wf _ _ _ _ (fun t ht => slotProgram_wf t _ _ _ ht) h_
    · split
      · exact hs _ _ h_
      · split
        · exact hs _ _ hf
        · exact selectDo_wf _ _ _ _ (fun t ht => failSlot_wf t _ _ ht) h_
    · exact selectDo_wf _ _ _ _ (fun _ ht => ht) h_
    · exact hs _ _ h_
theorem nspOther_wf (d : Device) (o : NspFrom) (code : Byte) (q : NspReq) (h_ : storesWf d = true) :
    storesWf (nspOther d o code q).2 = true := by
  unfold nspOther
  grind -ring -linarith -lia -ac -order [storesWf_memOf, nspChunk_wf, nspClose_wf, nspCommit_wf, nspOpen_wf, nspPing_mem, nspSelect_wf, refusedClose_mem, status_mem, memOf]
theorem touched_wf (o : NspFrom) (x : Answer) (h_ : storesWf x.2 = true) : storesWf (touched o x).2 = true := by
  unfold touched
  (repeat' split) <;> exact h_
theorem nspEffect_wf (d : Device) (o : NspFrom) (code : Byte) (q : NspReq) (h_ : storesWf d = true) :
    storesWf (nspEffect d o code q).2 = true := by
  have ho := nspOther_wf d o code q h_
  unfold nspEffect
  split
  · exact (storesWf_memOf (nspRead_mem d o q)).trans h_
  · exact nspWrite_wf _ _ _ h_
  · exact touched_wf _ _ ho
  · exact touched_wf _ _ ho
  · exact ho
theorem nspAnswerOf_wf (d : Device) (o : NspFrom) (code : Byte) (q : NspReq) (h_ : storesWf d = true) :
    storesWf (nspAnswerOf d o code q).2 = true := by
  unfold nspAnswerOf
  grind -ring -linarith -lia -ac -order [storesWf_memOf, nspEffect_wf, status_mem, memOf]
theorem nspRun_wf (d : Device) (o : NspFrom) (echo : BitVec 16) (code : Byte) (q : NspReq) (h_ : storesWf d = true) :
    storesWf (nspRun d o echo code q) = true := by
  unfold nspRun
  grind -ring -linarith -lia -ac -order [storesWf_memOf, nspAnswerOf_wf, nspReply_mem, memOf]
theorem nspDrain_wf (d : Device) (es : List (NspFrom × BitVec 16 × Byte × NspReq)) (h_ : storesWf d = true) :
    storesWf (nspDrain d es) = true := by
  induction es generalizing d with
  | nil => exact h_
  | cons e r ih =>
    unfold nspDrain
    extract_lets keep rs
    split
    · exact h_
    · split
      · exact h_
      · split
        · apply ih
          apply nspRun_wf
          exact (storesWf_memOf (useAll_mem _ _ _ _)).trans h_
        · exact (storesWf_memOf (awaitAll_mem _ _ _ _)).trans h_
theorem nspArrive_wf (d : Device) (o : NspFrom) (echo : BitVec 16) (code : Byte) (q : NspReq) (h_ : storesWf d = true) :
    storesWf (nspArrive d o echo code q) = true := by
  unfold nspArrive
  grind -ring -linarith -lia -ac -order [storesWf_memOf, noWait_mem, nspDrain_wf, memOf]
theorem nspFinish_wf (d : Device) (code seq : Byte) (s : Nat) (payload : List Byte) (h_ : storesWf d = true) :
    storesWf (nspFinish d code seq s payload) = true := by
  unfold nspFinish
  grind -ring -linarith -lia -ac -order [storesWf_memOf, nspDrain_wf, nspReply_mem, memOf]
theorem nspPartDone_wf (d : Device) (s : Nat) (data : List Word) (h_ : storesWf d = true) :
    storesWf (nspPartDone d s data) = true := by
  unfold nspPartDone
  grind -ring -linarith -lia -ac -order [storesWf_memOf, nspFinish_wf, nspSend_mem, memOf]
theorem nspKick_wf (d : Device) (h_ : storesWf d = true) :
    storesWf (nspKick d) = true := by
  unfold nspKick
  grind -ring -linarith -lia -ac -order [storesWf_memOf, nspFinish_wf, nspSend_mem, memOf]
theorem nspCommand_wf (d : Device) (o : NspFrom) (code : Byte) (q : NspReq) (h_ : storesWf d = true) :
    storesWf (nspCommand d o code q) = true := by
  unfold nspCommand
  grind -ring -linarith -lia -ac -order [storesWf_memOf, nspArrive_wf, memOf]
theorem nspAction_wf (d : Device) (o : NspFrom) (action : Nat) (q : NspReq) (h_ : storesWf d = true) :
    storesWf (nspAction d o action q) = true := by
  unfold nspAction
  grind -ring -linarith -lia -ac -order [storesWf_memOf, nspCommand_wf, memOf]
theorem nspFrame_wf (d : Device) (n : BitVec 10) (f : List Byte) (h_ : storesWf d = true) :
    storesWf (nspFrame d n f) = true := by
  unfold nspFrame
  grind -ring -linarith -lia -ac -order [storesWf_memOf, nspCommand_wf, memOf]
theorem takePart_wf (d : Device) (x : Reasm) (h_ : storesWf d = true) :
    storesWf (takePart d x) = true := by
  unfold takePart
  grind -ring -linarith -lia -ac -order [storesWf_memOf, dropPartial_mem, nspFrame_wf, memOf]
theorem nspPart_wf (d : Device) (c : RCell) (h_ : storesWf d = true) :
    storesWf (nspPart d c) = true := by
  unfold nspPart
  grind -ring -linarith -lia -ac -order [storesWf_memOf, dropPartial_mem, takePart_wf, memOf]
theorem nspBroadcast_wf (d : Device) (c : RCell) (h_ : storesWf d = true) :
    storesWf (nspBroadcast d c) = true := by
  unfold nspBroadcast
  grind -ring -linarith -lia -ac -order [storesWf_memOf, nspFrame_wf, memOf]
theorem requestDone_wf (d : Device) (r : OutReq) (status : Nat) (data : List Word) (h_ : storesWf d = true) :
    storesWf (requestDone d r status data) = true := by
  unfold requestDone
  grind -ring -linarith -lia -ac -order [storesWf_memOf, checkDone_mem, checkKick_mem, finishReq_mem, formDone_mem, nspKick_wf, nspPartDone_wf, status_mem, memOf]
theorem requestFails_wf (d : Device) (seq : BitVec 16) (status : Nat) (h_ : storesWf d = true) :
    storesWf (requestFails d seq status) = true := by
  unfold requestFails
  grind -ring -linarith -lia -ac -order [storesWf_memOf, requestDone_wf, status_mem, memOf]
theorem readAnswered_wf (d : Device) (r : OutReq) (c : RCell) (h_ : storesWf d = true) :
    storesWf (readAnswered d r c) = true := by
  unfold readAnswered
  grind -ring -linarith -lia -ac -order [storesWf_memOf, requestDone_wf, status_mem, memOf]
theorem responseTaken_wf (d : Device) (c : RCell) (h_ : storesWf d = true) :
    storesWf (responseTaken d c) = true := by
  unfold responseTaken
  grind -ring -linarith -lia -ac -order [storesWf_memOf, readAnswered_wf, requestDone_wf, memOf]
theorem roleFails_wf (d : Device) (c : RCell) (h_ : storesWf d = true) :
    storesWf (roleFails d c) = true := by
  unfold roleFails
  grind -ring -linarith -lia -ac -order [storesWf_memOf, requestFails_wf, memOf]
theorem resend_wf (d : Device) (dst : BitVec 10) (c : RCell) (h_ : storesWf d = true) :
    storesWf (resend d dst c) = true := by
  unfold resend
  grind -ring -linarith -lia -ac -order [storesWf_memOf, queueOut_mem, requestFails_wf, memOf]
theorem resendPair_wf (d : Device) (c : RCell) (h_ : storesWf d = true) :
    storesWf (resendPair d c) = true := by
  unfold resendPair
  grind -ring -linarith -lia -ac -order [storesWf_memOf, resend_wf, memOf]
theorem roleReturn_wf (d : Device) (c : RCell) (h_ : storesWf d = true) :
    storesWf (roleReturn d c) = true := by
  unfold roleReturn
  grind -ring -linarith -lia -ac -order [storesWf_memOf, resendPair_wf, resend_wf, roleFails_wf, memOf]
theorem retryKick_wf (d : Device) (h_ : storesWf d = true) :
    storesWf (retryKick d) = true := by
  unfold retryKick
  grind -ring -linarith -lia -ac -order [storesWf_memOf, resendPair_wf, memOf, foldl_wf, forChans_wf]
theorem retryExpires_wf (d : Device) (seq : BitVec 16) (h_ : storesWf d = true) :
    storesWf (retryExpires d seq) = true := by
  unfold retryExpires
  grind -ring -linarith -lia -ac -order [storesWf_memOf, roleFails_wf, memOf]
theorem learnRoute_wf (d : Device) (c : RCell) (h_ : storesWf d = true) :
    storesWf (learnRoute d c) = true := by
  unfold learnRoute
  grind -ring -linarith -lia -ac -order [storesWf_memOf, retryKick_wf, routeWrite_mem, memOf]
theorem deliver_wf (d : Device) (s : Side) (c : RCell) (h_ : storesWf d = true) :
    storesWf (deliver d s c) = true := by
  unfold deliver
  grind -ring -linarith -lia -ac -order [storesWf_memOf, intoDrop_mem, responseTaken_wf, roleReturn_wf, memOf]
theorem cameBack_wf (d : Device) (c : RCell) (h_ : storesWf d = true) :
    storesWf (cameBack d c) = true := by
  unfold cameBack
  grind -ring -linarith -lia -ac -order [storesWf_memOf, requestFails_wf, memOf]
theorem cellArrived_wf (d : Device) (s : Side) (c : RCell) (h_ : storesWf d = true) :
    storesWf (cellArrived d s c) = true := by
  unfold cellArrived castArrived
  grind -ring -linarith -lia -ac -order [storesWf_memOf, cameBack_wf, deliver_wf, forward_mem, learnRoute_wf, noteCast_mem, nspBroadcast_wf, ownerResetArrived_mem, retryKick_wf, topoArrived_mem, memOf]
theorem serveWrite_wf (d : Device) (s : Side) (c : RCell) (h_ : storesWf d = true) :
    storesWf (serveWrite d s c) = true := by
  have hw := writeMany_wf d (.ring c.src) (offsetField c) (writeData c) h_
  have hs : ∀ x t p, storesWf x = true → storesWf (sendResponse x (qDrop s) c 4 t p) = true :=
    fun x t p h => (storesWf_memOf (sendResponse_mem _ _ _ _ _ _)).trans h
  unfold serveWrite
  split
  · exact hs _ _ _ ((storesWf_memOf (malformed_mem _ _)).trans h_)
  · generalize writeMany d (.ring c.src) (offsetField c) (writeData c) = p at *
    obtain ⟨ok, t⟩ := p
    cases ok <;> exact hs _ _ _ hw
theorem servePosted_wf (d : Device) (c : RCell) (h_ : storesWf d = true) :
    storesWf (servePosted d c) = true := by
  have hw := writeMany_wf d (.ring c.src) (offsetField c) (writeData c) h_
  unfold servePosted
  split
  · exact hw
  · exact (storesWf_memOf (malformed_mem _ _)).trans h_
theorem takeLqWin_wf (d : Device) (n : ChanNo) (i : LqIdx) (w : Nat) (v : Word) (h_ : storesWf d = true) :
    storesWf (takeLqWin d n i w v) = true := by
  unfold takeLqWin
  grind -ring -linarith -lia -ac -order [storesWf_memOf, lqSetWord_wf, setAbroad_mem, memOf]
theorem takeLqState_wf (d : Device) (n : ChanNo) (i : LqIdx) (st : LqSt) (cancel late committed : Bool) (h_ : storesWf d = true) :
    storesWf (takeLqState d n i st cancel late committed) = true := by
  unfold takeLqState
  grind -ring -linarith -lia -ac -order [storesWf_memOf, lqHold_mem, translateLaunch_wf, memOf]
theorem mirApply_wf (d : Device) (m : MirMsg) (h_ : storesWf d = true) :
    storesWf (mirApply d m) = true := by
  unfold mirApply
  grind -ring -linarith -lia -ac -order [storesWf_memOf, heartbeatArrives_mem, journalMirrored_mem, lockMirrored_mem, takeBallot_mem, takeContext_mem, takeEpoch_mem, takeFc_mem, takeHoldlog_mem, takeLqState_wf, takeLqWin_wf, takeResync_mem, timeMirrored_mem, tokenArrives_mem, memOf]
theorem mirDo_wf (d : Device) (m : MirMsg) (h_ : storesWf d = true) :
    storesWf (mirDo d m) = true := by
  unfold mirDo
  grind -ring -linarith -lia -ac -order [storesWf_memOf, awaitAll_mem, mirApply_wf, mrxWait_mem, useAll_mem, memOf]
theorem mrxGo_wf (d : Device) (h_ : storesWf d = true) :
    storesWf (mrxGo d) = true := by
  unfold mrxGo
  grind -ring -linarith -lia -ac -order [storesWf_memOf, mirDo_wf, noWait_mem, memOf, foldl_wf, forChans_wf]
theorem mirArrive_wf (d : Device) (q : BitVec 16) (m : MirMsg) (h_ : storesWf d = true) :
    storesWf (mirArrive d q m) = true := by
  unfold mirArrive
  grind -ring -linarith -lia -ac -order [storesWf_memOf, mirDo_wf, mirSeen_mem, memOf]
theorem nspGo_wf (d : Device) (h_ : storesWf d = true) :
    storesWf (nspGo d) = true := by
  unfold nspGo
  grind -ring -linarith -lia -ac -order [storesWf_memOf, noWait_mem, nspDrain_wf, memOf]
theorem ballotsGo_wf (d : Device) (h_ : storesWf d = true) :
    storesWf (ballotsGo d) = true := by
  unfold ballotsGo
  grind -ring -linarith -lia -ac -order [storesWf_memOf, ballotFrame_wf, memOf, foldl_wf, forChans_wf]
theorem conGo_wf (d : Device) (h_ : storesWf d = true) :
    storesWf (conGo d) = true := by
  unfold conGo
  grind -ring -linarith -lia -ac -order [storesWf_memOf, accessKick_wf, ballotsGo_wf, loaderGo_mem, mrxGo_wf, nspGo_wf, resyncGo_mem, memOf]
theorem tick_wf (d : Device) (h_ : storesWf d = true) :
    storesWf (tick d) = true := by
  unfold tick
  grind -ring -linarith -lia -ac -order [storesWf_memOf, bootStep_wf, tEdge_mem, memOf]
end Sys2Proof.Machine
end

