-- ==== Sys2Proof/Machine/LaneBits.lean ====
section
/-! DEFINITION. What a lane carries below its cells (R216, R218, R221, R232): 64b/66b blocks, the scrambler, the blocks of a cell, and
how a receiver finds the cells again. The commands stand at whole cells; these functions say what a command's cell is on the lane. -/

namespace Sys2Proof.Machine

/-- A block as received: a data block, idle characters, or any other control block or sync header, which is an invalid block (R216). -/
inductive Block where
  | data (w : BitVec 64)
  | idle
  | bad
  deriving DecidableEq, Repr

/-- A block on the lane: sync header 0b01 data, 0b10 control; a control block has type 0x1E and eight idle characters, 0x00 each (R216). -/
def blockCode (b : Block) : BitVec 2 × BitVec 64 :=
  match b with
  | .data w => (0b01#2, w)
  | .idle => (0b10#2, 0x1E#64)
  | .bad => (0b11#2, 0)

/-- A received sync header and block read (R216). -/
def blockRead (h : BitVec 2) (w : BitVec 64) : Block :=
  if h = 0b01#2 then .data w else if h = 0b10#2 ∧ w = 0x1E#64 then .idle else .bad

/-- One bit through the self-synchronising scrambler x^58 + x^39 + 1: the bit sent, and the 58 bits sent before the next (R216). -/
def scrambleBit (s : BitVec 58) (b : Bool) : Bool × BitVec 58 :=
  let o := (b ^^ s.getLsbD 38) ^^ s.getLsbD 57
  (o, (s <<< 1) ||| (BitVec.ofBool o).setWidth 58)

/-- One received bit through the descrambler. -/
def descrambleBit (s : BitVec 58) (o : Bool) : Bool × BitVec 58 :=
  ((o ^^ s.getLsbD 38) ^^ s.getLsbD 57, (s <<< 1) ||| (BitVec.ofBool o).setWidth 58)

/-- Bits scrambled in order, from the 58 bits sent before them. -/
def scramble (s : BitVec 58) (bs : List Bool) : List Bool :=
  match bs with
  | [] => []
  | b :: r => let (o, s) := scrambleBit s b; o :: scramble s r

/-- Bits descrambled in order. -/
def descramble (s : BitVec 58) (bs : List Bool) : List Bool :=
  match bs with
  | [] => []
  | o :: r => let (b, s) := descrambleBit s o; b :: descramble s r

/-- The ten data words of a cell: header, payload, trailer (R218). -/
def cellWords (c : RCell) : List (BitVec 64) :=
  let p := fitTo 64 c.payload
  [BitVec.ofNat 64 (headerNat c)] ++ (List.range 8).map (fun b => BitVec.ofNat 64 (leAt p (8 * b) 8))
    ++ [BitVec.ofNat 64 (c.crc.toNat + 4294967296 * c.seqEcho.toNat)]

/-- The blocks of a cell and the idle block that ends it (R216, R218). -/
def cellBlocks (c : RCell) : List Block := (cellWords c).map .data ++ [.idle]

/-- What a ring side's lane carries: SPAN_DOWN in every cell time while the side is failed (R232), else idle blocks (R218) between the
cells put on it. -/
def laneRest (d : Device) (s : Side) : List Block :=
  if (port d (sidePort s)).spanDownTx then
    let q := (port d (sidePort s)).spanSeq
    let c := { (newCell d 20 0 0 []).1 with seq := q, seqEcho := q }
    (cellWords { c with crc := cellCrc c }).map .data
  else [.idle]

/-- Ten words pass the CRC check of a cell (R220). -/
def wordsPass (ws : List (BitVec 64)) : Bool :=
  let bs := ws.flatMap (fun w => leBytes 8 w.toNat)
  decide (BitVec.ofNat 32 (leAt bs 72 4) = crc32c (bs.take 72 ++ (bs.drop 76).take 4))

/-- Where a receiver stands (R221): between cells, a cell with the data blocks it has so far, or, alignment lost, the latest data blocks
of its hunt. -/
inductive Align where
  | gap
  | cell (ws : List (BitVec 64))
  | hunt (ws : List (BitVec 64))
  deriving DecidableEq, Repr

/-- What one block brings (R221): nothing, cells, or a partial cell discarded and counted in FRAMING. -/
inductive Framed where
  | nothing
  | cells (ws : List (BitVec 64))
  | partialCell
  deriving DecidableEq, Repr

/-- A receiver takes one block (R221): the first data block after a control block is a header, and so is the eleventh of a run; a block
that is no data before the tenth of a cell discards it; after an invalid block that ends a cell the receiver hunts, each data block in turn a
header, until two cells in succession pass the CRC check or a control block comes. -/
def alignStep (a : Align) (b : Block) : Align × Framed :=
  match b, a with
  | .data w, .gap => (.cell [w], .nothing)
  | .data w, .cell ws =>
    if ws.length = 10 then (.cell [w], .nothing)
    else (.cell (ws ++ [w]), if ws.length = 9 then .cells (ws ++ [w]) else .nothing)
  | .data w, .hunt ws =>
    let ws := ws.drop (ws.length - 19) ++ [w]
    if decide (ws.length = 20) && wordsPass (ws.take 10) && wordsPass (ws.drop 10) then (.cell (ws.drop 10), .cells ws) else (.hunt ws, .nothing)
  | .idle, .cell ws => (.gap, if ws.length < 10 then .partialCell else .nothing)
  | .bad, .cell ws => (.hunt [], if ws.length < 10 then .partialCell else .nothing)
  | .idle, _ => (.gap, .nothing)
  | .bad, .gap => (.gap, .nothing)
  | .bad, .hunt _ => (.hunt [], .nothing)

end Sys2Proof.Machine
end

