-- ==== Sys2Proof/Tests/Slice0.lean ====
section
/-! SUPPORT. The model's own tests: operands that no device can meet are ill-formed, check values and worked examples of the
spec, and for every statement with hypotheses a concrete state and operands that meet them. -/

namespace Sys2Proof.Tests

open Sys2Proof Sys2Proof.Machine Sys2Proof.Stated

/-! ### Small states -/

/-- The device after reset with the lattice die released. -/
def up : Device := { State.reset.dev with glb := { State.reset.dev.glb with latUp := true } }

/-- A state of that device, nothing waiting. -/
def on (d : Device) : State := ⟨d, []⟩

/-- Channel 3 with role HEAD drives its bus: in NORMAL with its token, integrated, its journal and launch queue placed. -/
def driving : Device :=
  onChan up 3 (fun c => { c with
    fe := { c.fe with role := .head, integrated := true, busIdle := true }
    lq := { c.lq with base := some 0x800000 }
    jn := { c.jn with base := some 0x10000 }
    line := { c.line with state := .normal, req := .normal, token := true, rxReady := true } })

/-- That channel with entry 5 of its launch queue in a state. -/
def entry5 (e : LqEnt) (d : Device) : Device := onLq d 3 (fun q => { q with ents := [(5, e)] })

/-- That channel asleep with an armed recogniser, patterns and frames enabled. -/
def asleep : Device :=
  onChan up 3 (fun c => { c with
    wake := { c.wake with armed := true, set := { c.wake.set with cfg := 3 }, use := { c.wake.use with cfg := 3 } }
    line := { c.line with state := .sleep } })

/-- A classical frame of one data byte. -/
def frame1 : Frame := ⟨5, false, false, false, false, false, 1, [7]⟩

/-! ### Operands that cannot occur -/

theorem test_frame_length : WellFormed (.rxFrameValid 3 { frame1 with data := [] }) = false := by decide
theorem test_frame_identifier : WellFormed (.rxFrameValid 3 { frame1 with ident := 2048 }) = false := by decide
theorem test_frame_brs_classical : WellFormed (.rxFrameValid 3 { frame1 with brs := true }) = false := by decide
theorem test_frame_well_formed : WellFormed (.rxFrameValid 3 frame1) = true := by decide
theorem test_staged_head : WellFormed (.journalWordStaged 3 (.head { frame1 with esi := true })) = false := by decide
theorem test_access_width : WellFormed (.registerWrite .service 0x10000 3 0) = false := by decide
theorem test_sfp_page : WellFormed (.sfpInsert .east (List.replicate 97 0)) = false := by decide +kernel
theorem test_sfp_poll : WellFormed (.sfpPoll .west (List.replicate 13 0)) = false := by decide +kernel

/-- A ring cell with a payload and all else 0. -/
def cellOf (p : List Byte) : RCell := ⟨0, 0, 0, 0, 0, 0, false, false, false, false, p, 0, 0⟩

theorem test_cell_payload : WellFormed (.cellArrival .east (cellOf [])) = false := by decide
theorem test_nsp_payload : WellFormed (.read .port ⟨0, 0, 0, List.replicate 1029 0, 0⟩) = false := by decide +kernel

/-! ### Check values and worked examples of the spec -/

/-- R220: the CRC-32C of the string 123456789. -/
theorem test_crc32c_check : crc32c [0x31, 0x32, 0x33, 0x34, 0x35, 0x36, 0x37, 0x38, 0x39] = 0xE3069283#32 := by decide +kernel
/-- R371: the CRC-16 of the same string. -/
theorem test_crc16_check : crc16 [0x31, 0x32, 0x33, 0x34, 0x35, 0x36, 0x37, 0x38, 0x39] = 0x29B1#16 := by decide +kernel

/-! ### Witnesses: every premise of a statement is met -/

theorem test_witness_complete : WellFormed (.rxFrameValid 3 frame1) = true ∧
    ({ frame1 with data := [] } : Frame).data.length ≠ frameLen { frame1 with data := [] } := by decide
theorem test_witness_stores : storesWf (on up).dev = true ∧ ∃ t, step ⟨up, [.memWrite 5 1]⟩ = .next t := ⟨by decide, _, rfl⟩
theorem test_witness_line_requests : Up (on driving) ∧ (chan driving 3).fe.role ≠ .off ∧ (chan driving 3).fe.role ≠ .listen ∧
    (chan driving 3).line.state ≠ .sleep ∧ (chan up 4).fe.role = .off ∧
    (chan (onFe up 3 (fun f => { f with role := .listen })) 3).fe.role = .listen := by decide
theorem test_witness_line_controls : (chan driving 3).fe.role = .head ∧ (chan up 4).fe.role ≠ .head ∧
    (chan up 4).line.calBusy = false ∧ (chan up 4).line.state = .off ∧ (chan driving 3).line.state ≠ .off ∧
    (chan (onLine up 3 (fun l => { l with calBusy := true })) 3).line.calBusy = true := by decide
theorem test_witness_line_conditions : Vaon (on driving) ∧ drvOn driving 3 = true ∧
    (chan (onLine driving 3 (fun l => { l with moving := true })) 3).line.moving = true ∧
    (chan asleep 3).line.state = .sleep ∧ (chan asleep 3).wake.armed = true ∧
    (chan (onWake asleep 3 (fun w => { w with decoding := true })) 3).wake.decoding = true := by decide
/-- A standby request in force with every other channel of the die OFF and channel 3 in SLEEP. -/
def settling : Device := { asleep with glb := { asleep.glb with stby := true } }
theorem test_witness_settling : settling.glb.stby = true ∧
    (∀ m : ChanNo, dieOf m = dieOf 3 → (chan settling m).line.state = .sleep ∨ (chan settling m).line.state = .off) := by decide
theorem test_witness_sentinels : Vaon (on driving) ∧
    (chan (onLine up 3 (fun l => { l with state := .standby })) 3).line.state = .standby ∧ (chan driving 3).line.state = .normal ∧
    dieOf 3 = 0 ∧ (chan asleep 3).line.state ≠ .normal ∧ (chan asleep 3).line.state ≠ .listen ∧ Up (on up) := by decide
theorem test_witness_wakes : Vaon (on asleep) ∧ (chan asleep 3).wake.armed = true ∧
    (chan asleep 3).wake.use.cfg.getLsbD 0 = true ∧ (chan asleep 3).wake.set.cfg.getLsbD 2 = false ∧
    (chan asleep 3).wake.use.cfg.getLsbD 1 = true ∧ (false = (chan asleep 3).wake.use.cfg.getLsbD 6) ∧
    ((0 : BitVec 29) ^^^ (chan asleep 3).wake.use.id) &&& (chan asleep 3).wake.use.idMask = 0 ∧
    (chan (onWake asleep 3 (fun w => { w with errCnt := 32 })) 3).wake.errCnt = 32 ∧
    (chan driving 3).line.state ≠ .sleep := by decide
theorem test_witness_local_wake : asleep.glb.wakeNLow = false ∧
    (chan (onLine asleep 3 (fun l => { l with localWake := true })) 3).line.localWake = true ∧
    ({ up with glb := { up.glb with wakeNLow := true } } : Device).glb.wakeNLow = true := by decide
/-- A WUP wake of channel 3 not yet confirmed, one false wake being the limit. -/
def unconfirmed (limit : Word) : Device := onWake asleep 3 (fun w => { w with confirming := [7], fwCfg := limit })
theorem test_witness_false_wake : Vaon (on (unconfirmed 0x11000)) ∧ (chan (unconfirmed 0x11000) 3).wake.confirming ≠ [] ∧
    (let w := (chan (unconfirmed 0x11000) 3).wake
     fld w.fwCfg 12 4 ≠ 0 ∧ w.set.cfg.getLsbD 2 = false ∧
      fld w.fwCfg 12 4 ≤ (((7 :: w.fwTimes).take 15).filter (fun x => decide (7 - x ≤ fld w.fwCfg 16 10 * 1000))).length) ∧
    fld (chan (unconfirmed 0x1000C8) 3).wake.fwCfg 12 4 = 0 ∧ (chan asleep 3).wake.set.cfg.getLsbD 2 ≠ true := by decide
theorem test_witness_decoder : Vaon (on asleep) ∧ (chan asleep 3).wake.use.cfg.getLsbD 1 = true ∧
    (chan asleep 3).wake.armed = true := by decide
theorem test_witness_power : Vaon (on up) ∧
    ({ up with glb := { up.glb with vaonUp := false } } : Device).glb.vaonUp = false := by decide

/-- Channel 3 receives, or transmits its entry 5. -/
def receiving : Device := onFe driving 3 (fun f => { f with activity := .receiving, busIdle := false })
def sending : Device :=
  onFe (entry5 { st := .onBus } driving) 3 (fun f => { f with
    activity := .transmitting, asTx := true, busIdle := false, txFrame := some frame1 })

theorem test_witness_start_of_frame : Up (on driving) ∧ (chan driving 3).fe.integrated = true ∧
    (chan driving 3).fe.activity = .none ∧ modeOf driving 3 = .driving ∧
    lqOffered (entry5 { st := .ready } driving) 3 = some 5 ∧ noSelect (entry5 { st := .ready } driving) 3 = false := by decide
/-- Entry 5 offers an FD frame with BRS, and the delay measurement is on. -/
def fdOffer : Device :=
  onFe (sramPutWord (entry5 { st := .ready } driving) (lqPlace driving 3 5 1) 0x31) 3 (fun f => { f with cfgUse := 5 })
theorem test_witness_delay_measured :
    (stampedFrame fdOffer 3 5 0 0).fdf = true ∧ (stampedFrame fdOffer 3 5 0 0).brs = true ∧
    (chan fdOffer 3).fe.cfgUse.getLsbD 2 = true ∧ lqOffered fdOffer 3 = some 5 := by decide
theorem test_witness_lost : Up (on sending) ∧ (chan sending 3).fe.activity = .transmitting ∧ lqOnBus sending 3 = some 5 ∧
    (lqEnt sending 3 5).cancel = false ∧ (lqEnt (entry5 { st := .onBus, cancel := true } sending) 3 5).cancel = true := by decide
theorem test_witness_frame_valid : Up (on receiving) ∧ frame1.data.length = frameLen frame1 ∧
    (chan receiving 3).fe.activity = .receiving ∧ modeOf receiving 3 = .driving ∧ (chan receiving 3).fe.monitored = false ∧
    lqOnBus sending 3 = some 5 ∧ (chan sending 3).fe.txFrame = some frame1 ∧ (chan sending 3).fe.activity = .transmitting := by decide
/-- The ballot of channel 3 sends its frame from entry 5, SLEEP_OFFER or SLEEP_COMMIT. -/
def balloting (ph : BalPh) (d : Device) : Device :=
  onSlp d 3 (fun x => { x with planValid := true, ballotIndex := 5, phase := ph })
theorem test_witness_ballot_sent : (5 : LqIdx) = ballotIdx (balloting .offer sending) 3 ∧
    (chan (balloting .offer sending) 3).slp.phase = .offer ∧ (chan (balloting .commit sending) 3).slp.phase = .commit ∧
    (chan (onFe receiving 3 (fun f => { f with monitored := true })) 3).fe.monitored = true := by decide
theorem test_witness_bus_errors : Up (on receiving) ∧ (chan receiving 3).fe.integrated = true ∧ modeOf receiving 3 ≠ .idle ∧
    (chan receiving 3).fe.monitored = false ∧ (chan receiving 3).fe.asTx = false ∧ (chan sending 3).fe.asTx = true ∧
    modeOf sending 3 = .driving ∧ receiving.pair.role = .unpaired ∧
    (chan (onFe receiving 3 (fun f => { f with cfgUse := 2 })) 3).fe.cfgUse.getLsbD 1 = true := by decide
/-- Channel 3 before its integration, in bus-off, and in its recovery. -/
def apartFromBus : Device := onFe driving 3 (fun f => { f with integrated := false })
def busOff (k : BitVec 8) (going : Bool) : Device :=
  onFe driving 3 (fun f => { f with fcState := .busOff, tec := 256, recovering := going, recovCnt := k })
theorem test_witness_integration : modeOf apartFromBus 3 ≠ .idle ∧ (chan apartFromBus 3).fe.integrated = false ∧
    (chan apartFromBus 3).fe.recovering = false ∧ apartFromBus.img.held ≠ some ((3 : ChanNo).val / 8 + 1) ∧
    ({ apartFromBus with img := { apartFromBus.img with held := some 1 } } : Device).img.held = some ((3 : ChanNo).val / 8 + 1) := by
  decide
theorem test_witness_recovery : modeOf (busOff 126 true) 3 ≠ .idle ∧ (chan (busOff 126 true) 3).fe.integrated = true ∧
    (chan (busOff 126 true) 3).fe.recovering = true ∧ (chan (busOff 126 true) 3).line.rxReady = true ∧
    (chan (busOff 126 true) 3).fe.recovCnt.toNat < 127 ∧ (chan driving 3).fe.fcState ≠ .busOff ∧
    (chan (busOff 0 false) 3).fe.fcState = .busOff ∧ (chan (busOff 0 false) 3).fe.recovering = false ∧
    (chan (busOff 127 true) 3).fe.recovCnt = 127 := by decide

theorem test_witness_window : Up (on driving) ∧
    (lqEnt driving 3 (chan driving 3).lq.sel.toFin).st = .free ∧ (chan driving 3).lq.base.isSome = true ∧
    (lqEnt (onLq driving 3 (fun q => { q with ents := [(0, { st := .ready })] })) 3 0).st ≠ .free ∧
    (0x100000 + 3 * 0x1000 + 0x300 + 4 * 23 = chanOff 3 (0x300 + 4 * (23 : Fin 24).val)) ∧ driving.svc.recovery = false ∧
    flipsAt driving (lqPlace driving 3 0 23) = 0 := by decide
/-- Entry 5 holds a timed frame for raw value 100, dropped when late or not. -/
def timedEntry (late : Word) (now : Raw) : Device :=
  let d := sramPutWord (sramPutWord driving (lqPlace driving 3 5 1) (0x108 + late)) (lqPlace driving 3 5 2) 100
  { d with tim := { d.tim with raw := now } }
theorem test_witness_commit : Up (on driving) ∧ (lqEnt driving 3 5).st = .free ∧ mayDrive (chan driving 3).fe.role = true ∧
    shadowFor driving 3 = false ∧ lqFormatOk driving 3 5 = true ∧
    ((lqWord driving 3 5 1).getLsbD 4 && !(chan driving 3).fe.feCfg.getLsbD 0) = false ∧ lqStampOk driving 3 5 = true ∧
    lqTimed driving 3 5 = false ∧ mayDrive (chan up 4).fe.role = false := by decide
theorem test_witness_commit_timed : lqFormatOk (timedEntry 0 100) 3 5 = true ∧ lqTimed (timedEntry 0 100) 3 5 = true ∧
    (timedEntry 0 100).tim.raw = lqLaunch (timedEntry 0 100) 3 5 ∧
    laterThan (lqLaunch (timedEntry 0 99) 3 5) (timedEntry 0 99).tim.raw = true ∧
    laterThan (lqLaunch (timedEntry 0 101) 3 5) (timedEntry 0 101).tim.raw = false ∧
    (lqWord (timedEntry 0x200 101) 3 5 1).getLsbD 9 = true ∧ (lqWord (timedEntry 0 101) 3 5 1).getLsbD 9 = false := by decide
theorem test_witness_launch : (lqEnt (entry5 { st := .waiting } (timedEntry 0 100)) 3 5).st = .waiting ∧
    (lqEnt (entry5 { st := .waiting } (timedEntry 0 100)) 3 5).closing = false ∧
    reached (timedEntry 0 100).tim.raw (lqLaunch (timedEntry 0 100) 3 5) = true ∧
    (chan (onLq driving 3 (fun q => { q with cancels := [some 5] })) 3).lq.cancels = [some 5] ∧
    (lqEnt sending 3 5).st = .onBus ∧ (lqEnt sending 3 5).closing = false := by decide

/-- The journal of channel 3 with a staged entry, with words in it, or full. -/
def staged : Device := onJn driving 3 (fun j => { j with staging := [.whole [1, 2, 3, 4] none] })
def filled : Device := onJn staged 3 (fun j => { j with wr := 0x8000 })
def noted : Device := onJn driving 3 (fun j => { j with wr := 4, mark := some 0 })
theorem test_witness_journal_staging : (chan receiving 3).fe.activity = .receiving ∧ modeOf receiving 3 ≠ .idle ∧
    journalOn receiving 3 = true ∧ (chan receiving 3).jn.frameWords = 0 ∧ (chan receiving 3).jn.losing = false ∧
    0 < frameLen frame1 ∧ (chan receiving 3).fe.txFrame = none ∧ stagedWords (chan receiving 3).jn + 4 ≤ 24 ∧
    (let j := (chan (onJn receiving 3 (fun j => { j with frameWords := 4, frameTotal := 6 })) 3).jn
     4 ≤ j.frameWords ∧ j.frameWords + 1 < j.frameTotal ∧ j.losing = false ∧ stagedWords j + 1 ≤ 24) := by decide
theorem test_witness_journal_write : (chan staged 3).jn.staging = .whole [1, 2, 3, 4] none :: [] ∧
    [(1 : Word), 2, 3, 4].length ≤ jFree (chan staged 3).jn ∧ (chan staged 3).jn.mark = none ∧
    (chan staged 3).jn.consumeTo = none ∧ 0 < jCap (chan staged 3).jn ∧ (chan staged 3).jn.rd ≤ (chan staged 3).jn.wr ∧
    jFree (chan filled 3).jn < [(1 : Word), 2, 3, 4].length := by decide
theorem test_witness_journal_read : (chan noted 3).jn.rd < (chan noted 3).jn.wr ∧ (chan driving 3).jn.wr ≤ (chan driving 3).jn.rd ∧
    (chan noted 3).jn.rd + (4 : Fin 21).val ≤ (chan noted 3).jn.wr ∧ (chan noted 3).jn.mark = some 0 ∧
    (chan driving 3).jn.mark = none := by decide

theorem test_witness_ballot_start : Up (on (balloting .idle driving)) ∧ (chan (balloting .idle driving) 3).slp.planValid = true ∧
    (chan (balloting .idle driving) 3).fe.role = .head ∧ (chan (balloting .idle driving) 3).line.state = .normal ∧
    modeOf (balloting .idle driving) 3 = .driving ∧ (chan (balloting .idle driving) 3).slp.phase = .idle ∧
    (lqEnt (balloting .idle driving) 3 (ballotIdx (balloting .idle driving) 3)).st = .free ∧ reached 7 7 = true ∧
    (chan up 4).slp.planValid = false := by decide
theorem test_witness_ballot_ends : (chan (balloting .window driving) 3).slp.phase = .window ∧
    reached (balloting .window driving).tim.raw (chan (balloting .window driving) 3).slp.windowEnd = true ∧
    (chan driving 3).fe.activity = .none ∧ shadowFor driving 3 = false ∧ (chan (balloting .window driving) 3).slp.holds = [] ∧
    (chan (onSlp (balloting .window driving) 3 (fun x => { x with holds := [(1, 0)] })) 3).slp.holds ≠ [] ∧
    (∀ i : LqIdx, i ≠ ballotIdx (balloting .window driving) 3 → lqReady (balloting .window driving) 3 i = false) ∧
    (lqEnt (balloting .window driving) 3 (ballotIdx (balloting .window driving) 3)).st = .free ∧
    (chan (balloting .descent driving) 3).slp.phase = .descent ∧ (chan driving 3).fe.busIdle = true := by decide
/-- A HOLD of channel 3 waits in entry 5 until raw value 0. -/
def holding : Device :=
  onSlp (entry5 { st := .ready } (balloting .idle driving)) 3 (fun x => { x with holdUntil := some 0 })
theorem test_witness_hold : (chan holding 3).slp.holdUntil = some 0 ∧ reached holding.tim.raw 0 = true ∧
    (lqEnt holding 3 (ballotIdx holding 3)).st = .ready ∧ (lqEnt holding 3 (ballotIdx holding 3)).closing = false ∧
    (chan holding 3).slp.phase = .idle := by decide
/-- The ballot's SLEEP_COMMIT on the bus, with a calibration of now, without one, or pre-armed. -/
def committing (fresh pre : Bool) : Device :=
  let d := onWake (balloting .commit sending) 3 (fun w => { w with calValid := fresh, preArmed := pre, calBusy := true })
  { d with glb := { d.glb with loaded := true } }
theorem test_witness_recogniser : (chan (committing true false) 3).slp.phase = .commit ∧
    lqOnBus (committing true false) 3 = some (ballotIdx (committing true false) 3) ∧
    (committing true false).glb.loaded = true ∧ (chan (committing true false) 3).wake.calValid = true ∧
    ((committing true false).tim.raw - (chan (committing true false) 3).wake.calRaw).toNat ≤ 10 * msTicks ∧
    (chan (committing false false) 3).wake.calValid = false ∧ (chan (committing true true) 3).wake.preArmed = true ∧
    (chan (committing true true) 3).wake.armWait = false ∧ (chan (committing true true) 3).wake.calBusy = true ∧
    (chan (onWake (committing true true) 3 (fun w => { w with armWait := true })) 3).wake.armWait = true := by decide
/-- Channel 3 follows the ballots of its bus. -/
def follower : Device :=
  onSlp (onFe receiving 3 (fun f => { f with role := .member })) 3 (fun x => { x with planValid := true, follow := true })
theorem test_witness_follower : mayFollow follower 3 = true ∧ (chan follower 3).fe.activity = .receiving := by decide

/-! ### Time, ring and pair -/

/-- The device with its ring unit, pair unit or time unit changed. -/
def ringed (f : Ring → Ring) : Device := { up with ring := f up.ring }
def pairing (f : Pair → Pair) (d : Device) : Device := { d with pair := f d.pair }
def timed (f : TimeUnit → TimeUnit) : Device := { up with tim := f up.tim }

theorem test_witness_increments : Up (on up) ∧ (up.pair.role ≠ .shadow ∧ up.tim.servoHost = false ∧ up.tim.masterLost = false) ∧
    (timed (fun t => { t with pairInc := true })).tim.pairInc = true ∧ (timed (fun t => { t with servoHost := true })).tim.servoHost = true ∧
    (timed (fun t => { t with incs := [⟨1, none⟩] })).tim.incs = ⟨1, none⟩ :: [] ∧
    (624375 * 1099511627776 ≤ ((up.tim.rate.toNat : Int) + 0) * 100000 ∧
      ((up.tim.rate.toNat : Int) + 0) * 100000 ≤ 625625 * 1099511627776) ∧
    ¬ (((up.tim.rate.toNat : Int) + 1099511627775) * 100000 ≤ 625625 * 1099511627776) := by decide
theorem test_witness_conversions : up.tim.convBusy = false ∧ up.tim.inverse = false ∧ up.tim.byGen = true ∧
    (timed (fun t => { t with convBusy := true, convRes := some (0, 5) })).tim.convRes = some (0, 5) ∧
    (timed (fun t => { t with convBusy := true })).tim.convRes = none ∧ up.tim.convHeld = [] ∧
    (timed (fun t => { t with byGen := false })).tim.byGen = false := by decide
/-- Station 5 of the ring, joined, both ports UP; station 9 is reached by CW in one hop. -/
def joined : Device :=
  ringed (fun r => { r with
    en := true, station := 5, join := .joined, epoch := 2, maps := [(9, { cwOk := true, cwHops := 1 })]
    east := { r.east with st := .up, blockLock := true, phiDone := true }
    west := { r.west with st := .up, blockLock := true, phiDone := true } })
/-- A cell of station 9 with its CRC. -/
def from9 (c : RCell) : RCell := let c := { c with src := 9, payload := List.replicate 64 0 }; { c with crc := cellCrc c }
theorem test_cell_sound (c : RCell) : (from9 c).crc = cellCrc (from9 c) := by simp only [from9, cellCrc, headerNat]
theorem test_witness_beacons : (let d := { joined with tim := { joined.tim with master := true, masterSt := 5 } }
     d.tim.master = true ∧ d.tim.masterSt = d.ring.station ∧ d.ring.join = .joined) ∧
    (from9 (cellOf [])).hop ≠ 1023 ∧ (from9 (cellOf [])).src ≠ joined.ring.station ∧
    (from9 (cellOf [])).src ≠ joined.tim.masterSt ∧
    (from9 (cellOf [])).src = ({ joined with tim := { joined.tim with masterSt := 9 } } : Device).tim.masterSt := by decide
/-- A delay request of seq 0 left East at raw value 0, and it is 100 now. -/
def asked : Device := { joined with tim := { joined.tim with pdReq := joined.tim.pdReq.set 0 (some (0, 0)), raw := 100 } }
theorem test_witness_delays : (port asked .east).phiDone = true ∧ (port asked .east).st = .up ∧ pdReqOf asked .east = some (0, 0) ∧
    (0 : BitVec 16).toNat = leAt (from9 (cellOf [])).payload 16 2 ∧ (1 : BitVec 16).toNat ≠ leAt (from9 (cellOf [])).payload 16 2 ∧
    (let v : Int := (arrivalRaw (port asked .east) 100 0 - ((0 : Raw).toNat : Int) * 65536 -
        (leAt (from9 (cellOf [])).payload 8 8 : Int)) * (asked.tim.rate.toNat : Int) / 2199023255552
     0 ≤ v ∧ v < 4294967296) := by decide +kernel
theorem test_witness_master_change : (9 : BitVec 10) ≠ up.tim.masterSt ∧ reference up = up.lat.refSel ∧
    (let d := { joined with tim := { joined.tim with masterSt := 9 }, lat := { joined.lat with trained := true } }
     reference d ≠ d.lat.refSel) := by decide

theorem test_witness_ring_enable : up.ring.en = false ∧ joined.ring.en = true ∧ up.ring.east.modAbs = false ∧
    (port (ringed (fun r => { r with en := true, east := { r.east with st := .training, blockLock := true } })) .east).st = .training ∧
    (port (ringed (fun r => { r with east := { r.east with blockLock := true } })) .east).blockLock = true ∧
    (port up .east).phiDone = false ∧ (List.replicate 96 (0 : Byte)).length = 96 ∧ ([] : List Byte).length < 12 ∧
    (port up .mirror).st = .down := by decide +kernel
theorem test_witness_neighbour : (port (ringed (fun r => { r with east := { r.east with st := .training, phiDone := true } }))
      (sidePort .east)).st = .training ∧ (port joined (sidePort .west)).st = .up ∧
    wrapped (ringed (fun r => { r with wrapWest := true })) .west = true ∧ (port joined (sidePort .west)).unwraps = 0 ∧
    (port (ringed (fun r => { r with west := { r.west with unwraps := 1 } })) .west).unwraps ≠ 0 := by decide
theorem test_witness_span_failure : (port joined .east).st ≠ .down ∧ (port joined (sidePort .east)).spanDowns ≠ 2 ∧
    (port (ringed (fun r => { r with east := { r.east with st := .up, spanDowns := 2 } })) (sidePort .east)).spanDowns = 2 := by decide
/-- The tag area names station 7. -/
def numbered : Device := { joined with tag := [(0, 7)] }
theorem test_witness_joining : numbered.ring.join ≠ .off ∧ numbered.ring.east.st = .up ∧ stationValid numbered = true ∧
    stationValid joined = false ∧
    (let d := { joined with ring := { joined.ring with join := .joining, joinRaw := 0 }, tim := { joined.tim with raw := 320000 } }
     d.ring.join = .joining ∧ 2 * msTicks ≤ (d.tim.raw - d.ring.joinRaw).toNat) ∧ joined.glb.ringMs = 0x3FF#10 ∧
    (3000 * msTicks ≤ ((480000000 : Raw) - (mapOf joined 9).fresh).toNat) ∧ joined.ring.wrapEast = false := by decide
theorem test_witness_broadcasts : (from9 { cellOf [] with bcast := true }).hop ≠ 1023 ∧ joined.ring.join ≠ .off ∧
    (from9 (cellOf [])).src ≠ joined.ring.station ∧ joined.pair.role ≠ .shadow ∧
    (let d := { joined with locks := [(3, { held := true, owner := 9, broken := false })] }
     (lockAt d 3).held = true ∧ (lockAt d 3).owner = 9 ∧ (lockAt d 4).held = false) ∧
    freshCast joined (from9 { cellOf [] with ctype := 10, seq := 4 }) = true ∧ leAt (from9 (cellOf [])).payload 2 2 < 512 ∧
    joined.ring.retry = [] := by decide
theorem test_witness_bad_cell (c : RCell) : ∃ v, ({ c with crc := v } : RCell).crc ≠ cellCrc { c with crc := v } :=
  ⟨cellCrc c + 1, by simp [cellCrc, headerNat]⟩
/-- A request of station 9 for this station, with its epoch in force or another. -/
def request (t : BitVec 6) (e : BitVec 8) : RCell := from9 { cellOf [] with dest := 5, ctype := t, epoch := e }
theorem test_witness_cells : (request 1 2).hop ≠ 1023 ∧ (request 1 2).dest = joined.ring.station ∧
    (request 1 2).epoch = joined.ring.epoch ∧ (dropOf joined .east).length < 64 ∧ (request 1 3).epoch ≠ joined.ring.epoch ∧
    routeTo joined 9 = some .east ∧ wrapped joined .east = false ∧
    bufOf (ringed (fun r => { r with bufEast := some (cellOf []) })) .east = some (cellOf []) ∧
    (let d := { joined with eng := joined.eng.set 1 { joined.eng[1] with egress := some (cellOf []) } }
     (d.eng[1].egress.map (·.seq)) = some (cellOf []).seq) := by decide
/-- A request with a payload waits at the front of the East drop queue. -/
def waiting (t : BitVec 6) (p : List Byte) : Device :=
  { joined with ring := { joined.ring with dropEast := [{ request t 2 with payload := p }] } }
theorem test_witness_waiting (t : BitVec 6) (p : List Byte) :
    dropOf (waiting t p) .east = { request t 2 with payload := p } :: [] := rfl
theorem test_witness_served : (leAt [1, 0, 0, 0] 0 4 % 4 ≠ 0) ∧ 64 < leAt [0, 0, 0, 0, 64] 4 1 + 1 ∧ leAt [0, 0, 0, 0, 63] 4 1 + 1 ≤ 64 ∧
    14 < leAt [0, 0, 0, 0, 14] 4 1 + 1 ∧ leAt [0, 0, 0, 0, 13] 4 1 + 1 ≤ 14 ∧ leAt [1, 3, 5, 0] 0 1 = 1 ∧
    leAt [1, 3, 5, 0] 2 2 % 65536 ≠ 0 ∧ (lockAt joined 3).held = false := by decide
/-- One request of this station is outstanding: a read of one word, due now. -/
def outstanding1 : OutReq := ⟨8, { cellOf [] with ctype := 1, seq := 8 }, 0, .other, [], []⟩
theorem test_witness_own_requests : (ringed (fun r => { r with reqs := [outstanding1] })).ring.reqs = [outstanding1] ∧
    outstanding1.why = .other ∧ up.svc.nspQueue = [] ∧ ({ cellOf [] with seqEcho := 8, ctype := 2 } : RCell).seqEcho = outstanding1.seq ∧
    outstanding1.cell.ctype = 1 ∧ (cellOf []).epoch.toNat < 2 ∧ outstanding1.parts = [] ∧ (cellOf []).seqEcho ≠ outstanding1.seq ∧
    reached up.tim.raw outstanding1.due = true ∧
    ({ outstanding1 with cell := { outstanding1.cell with ctype := 3 } } : OutReq).cell.ctype = 3 ∧
    (ringed (fun r => { r with retry := [(outstanding1.cell, 1, 0)] })).ring.retry = [(outstanding1.cell, 1, 0)] ∧
    up.ring.retry = [] ∧ ({ outstanding1.cell with retried := true, ctype := 0x31 } : RCell).seq = outstanding1.seq ∧
    2 * msTicks ≤ ((320000 : Raw) - 0).toNat ∧ up.svc.waiting = none ∧
    ({ outstanding1 with cell := { outstanding1.cell with ctype := 6 } } : OutReq).cell.ctype = 6 := by decide
theorem test_witness_locks : joined.pair.role ≠ .shadow ∧ (5 : BitVec 16) ≠ 0 ∧ (lockAt joined 3).held = false ∧
    (let d := { joined with locks := [(3, { held := true, owner := 5, broken := true }), (4, { held := true, owner := 9 })] }
     (lockAt d 3).held = true ∧ (lockAt d 3).owner = d.ring.station ∧ (lockAt d 4).owner ≠ d.ring.station ∧
     reached d.tim.raw (lockAt d 3).leaseEnd = true) ∧
    (pairing (fun p => { p with role := .shadow }) joined).pair.role = .shadow := by decide
theorem test_witness_concourse : heldBy up (70, .whole) = [] ∧ outstanding up 70 4 = false ∧
    (let d := onArb up 2 (fun a => { a with owner := some (72, .whole) })
     topOf (heldBy d (72, .whole)) = some 2 ∧ rankOf 2 ≤ rankOf 2) ∧
    (let d := onArb up 2 (fun a => { a with pending := [(72, .whole)] })
     (arbOf d 2).owner = none ∧ (arbOf d 2).next = none ∧ (arbOf d 2).pending = [(72, .whole)] ∧
     (arbOf d 2).takeStaged = false ∧ frozen d 2 = false) ∧
    (arbOf (onArb up 2 (fun a => { a with owner := some (72, .whole) })) 2).owner ≠ none := by decide

/-- A formed pair in step, its mirror lane UP; this member has the role. -/
def formed (r : PairRole) : Device :=
  pairing (fun p => { p with role := r, st := .inStep, hbOk := true, held := 8, partner := 9 })
    { joined with ring := { joined.ring with mirror := { joined.ring.mirror with st := .up, blockLock := true } } }
/-- The heartbeat of a partner in step. -/
def beat (r : BitVec 2) (dig : BitVec 32) : HbMsg := ⟨r, 2, 0, 0, dig, 0, 0, 0, 0⟩
theorem test_witness_heartbeats : (formed .active).pair.role ≠ .unpaired ∧ (formed .active).ring.mirror.st = .up ∧
    up.pair.role = .unpaired ∧ (formed .active).pair.st = .inStep ∧ (beat 2 0).digest = (formed .active).pair.digest ∧
    (beat 2 0).state ≠ 1 ∧ (beat 2 0).role = 2 ∧ (beat 1 0).role = 1 ∧ (beat 2 1).digest ≠ (formed .active).pair.digest ∧
    (formed .active).pair.fenced = false ∧ (formed .active).pair.hbOk = true ∧ up.pair.hbOk = false ∧
    (up.ring.east.st ≠ .up ∧ up.ring.west.st ≠ .up) := by decide
theorem test_witness_ring_checks : up.pair.check = none ∧
    (pairing (fun p => { p with check := some (4, false) }) (formed .shadow)).pair.check = some (4, false) ∧
    (formed .shadow).pair.st ≠ .mismatch ∧ (formed .active).pair.st = .inStep ∧
    (let d := pairing (fun p => { p with st := .splitSuspect }) (formed .shadow)
     d.pair.st = .splitSuspect ∧ d.pair.check = none ∧ d.ring.east.st = .up ∧ d.ring.reqs.length < 16 ∧
     addressed d false d.pair.partner.toNat 0x700004 = some (9, 0, 9) ∧ routeTo d 9 = some .east) := by decide
theorem test_witness_forming : (formed .forming).pair.role = .forming ∧ (beat 1 0).digest = (formed .forming).pair.digest ∧
    (let d := pairing (fun p => { p with role := .forming, formRing := true, partner := 8 }) joined
     d.pair.formRing = true ∧ d.ring.mirror.st ≠ .up ∧ d.ring.join = .joined ∧ routeTo d d.pair.partner = none) ∧
    (pairing (fun p => { p with role := .forming, formRing := true }) up).ring.join ≠ .joined := by decide
theorem test_witness_resync : (formed .active).pair.role = .active ∧ (formed .active).pair.st = .inStep ∧
    (pairing (fun p => { p with st := .resync, resyncSent := true }) (formed .active)).pair.resyncSent = true ∧
    (pairing (fun p => { p with st := .resync }) (formed .shadow)).pair.resyncSent = false ∧ up.pair.role = .unpaired := by decide
theorem test_witness_mirrored : (formed .shadow).pair.role = .shadow ∧ (formed .shadow).pair.st = .inStep ∧
    (formed .shadow).pair.held.getLsbD (4 : ChanNo).val = false ∧ (formed .shadow).pair.held.getLsbD (3 : ChanNo).val = true ∧
    (formed .shadow).pair.fcLocal.getLsbD (4 : ChanNo).val = false := by decide
theorem test_witness_castling : up.pair.role = .unpaired ∧ (formed .active).pair.castling = none ∧ (formed .active).pair.held ≠ 0 ∧
    (pairing (fun p => { p with held := 0 }) (formed .active)).pair.held = 0 ∧ (formed .shadow).pair.role = .shadow ∧
    (let d := onFe (formed .active) 3 (fun f => { f with role := .head, busIdle := true })
     (chan d 3).fe.fcState ≠ .busOff ∧ d.pair.peerLocal.getLsbD 3 = false ∧ mayDrive (chan d 3).fe.role = true ∧
     lqOnBus d 3 = none ∧ d.pair.held.getLsbD 3 = true ∧ d.pair.giving.getLsbD 3 = false) ∧
    (let d := pairing (fun p => { p with giving := 8, castling := some .channel }) (formed .active)
     d.pair.giving.getLsbD 3 = true ∧ d.pair.castling = some .channel) ∧
    lqOnBus { sending with pair := (formed .active).pair } 3 ≠ none ∧ (8 : BitVec 64).getLsbD (3 : ChanNo).val = true := by decide

/-! ### Engines, pins, images, service and power -/

/-- Engine 1 in RUN with context 0 next, bound as cfg says, and a program word at its pc. -/
def running (w : Word) (cfg : Word) (f : Ctx → Ctx) : Device :=
  onEng up 1 (fun e => { e with
    st := .run, prog := tabSet 0 [] 0 w, ctx := e.ctx.set 0 (f { e.ctx[0] with st := .ready, cfg := cfg }) })
theorem test_witness_turn : Turn (on (running (encR 0x01 1 2 3 0 0) 0 id)) 1 0 (encR 0x01 1 2 3 0 0) := by decide
theorem test_witness_turn_illegal : Turn (on (running 0 0 id)) 1 0 0 ∧ legalWord 0 = false := by decide
theorem test_witness_turn_legal : Turn (on (running (encI 0x3A 0 0 0) 0 id)) 1 0 (encI 0x3A 0 0 0) ∧
    legalWord (encI 0x3A 0 0 0) = true := by decide
theorem test_witness_engine_states : (running 0 0 id).eng[1].st = .run ∧ up.eng[1].st = .stopped ∧
    (onEng up 1 (fun e => { e with st := .stopping })).eng[1].st = .stopping := by decide
/-- The binding word of a channel, of pins, or of none. -/
def bindChannel : Word := 0xC03800
def bindPins : Word := 0x400
theorem test_witness_memory : bindOf (ctxOf (running 0 0 id) 1 0) = 0 ∧ bindOf (ctxOf (running 0 bindChannel id) 1 0) ≠ 0 ∧
    (∀ ws, (ctxOf (running 0 bindChannel id) 1 0).wait ≠ .done ws) ∧
    tabGet (0 : BitVec 39) (running 0 0 id).eng[1].flips 16383 = 0 ∧
    (ctxOf (running 0 bindChannel (fun x => { x with wait := .done [5] })) 1 0).wait = .done [5] ∧
    (let d := onEng (running (encI 0x22 1 2 3) bindChannel (fun x => { x with st := .stalled, cause := 1 })) 1
        (fun e => { e with port := some 0 })
     d.eng[1].st = .run ∧ (ctxOf d 1 0).st = .stalled ∧ (ctxOf d 1 0).cause = 1 ∧ d.eng[1].port = some 0 ∧
     progAt d.eng[1] (ctxOf d 1 0).pc = encI 0x22 1 2 3) := by
  refine ⟨by decide, by decide, fun ws h => ?_, by decide, by decide, by decide⟩
  cases h
theorem test_witness_pin_queues : boundCell (running 0 0 id) 1 0 15 = none ∧ boundCell (running 0 bindPins id) 1 0 0 = some 16 ∧
    (pinAt (running 0 bindPins id) 16).txq.length < pinCap (pinAt (running 0 bindPins id) 16) ∧
    pinCap (pinAt (onPin up 16 (fun q => { q with txq := [1, 2, 3, 4] })) 16) ≤ 4 ∧
    (pinAt (onPin up 16 (fun q => { q with rxq := [7] })) 16).rxq = 7 :: [] ∧ (pinAt up 16).rxq = [] := by decide
/-- Engine 1's context 0 bound to channel 3 with a journal of whole entries or none. -/
def reader (wr : Nat) (w : CtxWait) : Device :=
  onJn (running 0 bindChannel (fun x => { x with wait := w })) 3 (fun j => { j with base := some 0x10000, wr := wr })
theorem test_witness_channel_binding : boundChan (reader 0 .none) 1 0 22 = some 3 ∧ boundChan (reader 0 .none) 1 0 23 = some 3 ∧
    boundChan (running 0 0 id) 1 0 22 = none ∧ (chan (reader 0 .none) 3).jn.wr ≤ (chan (reader 0 .none) 3).jn.rd ∧
    (chan (reader 4 .none) 3).jn.rd < (chan (reader 4 .none) 3).jn.wr ∧ jPkts (reader 0 .none) 3 = 0 ∧
    (ctxOf (reader 0 (.done [1, 2])) 1 0).wait = .done [1, 2] ∧ (ctxOf (reader 0 .none) 1 0).wait = .none := by decide
theorem test_witness_whole_entry : jPkts (let d := reader 4 .none
    { d with sram := { d.sram with ends := [(jPlace (chan d 3).jn 3, true)] } }) 3 ≠ 0 := by decide
theorem test_witness_time : (0 : GReg).val % 2 = 0 ∧ (1 : GReg).val % 2 = 1 ∧ (convertGen up 0 0).isSome = true ∧
    convertGen up 1 0 = none ∧ ((0 : Raw).setWidth 32 - (0 : Word)).toNat < 2 ^ 31 ∧
    2 ^ 31 ≤ ((0 : Raw).setWidth 32 - (0x80000000 : Word)).toNat := by decide
/-- Its registers: g2 an offset of 8, g3 station 9. -/
def poster (w : Word) (cfg : Word) : Device :=
  { running w cfg (fun x => { x with g := (x.g.set 2 8).set 3 9 }) with ring := joined.ring }
theorem test_witness_ring_post : 13 < (14 : BitVec 4).toNat ∧ (13 : BitVec 4).toNat ≤ 13 ∧
    (let b := greg (poster 0 0) 1 0 2
     let z := greg (poster 0 0) 1 0 3
     b.toNat % 4 = 0 ∧ b.toNat < 2 ^ 30 ∧ z.toNat < 2 ^ 11 ∧ ¬ (z.getLsbD 10 = true ∧ z.getLsbD 9 = true) ∧
     addressed (poster 0 0) (z.getLsbD 10) (z.toNat % 1024) b.toNat = some (9, 0, 9)) ∧
    routeTo (poster 0 0) 9 = some .east ∧ (poster 0 0).eng[1].egress = none ∧ (poster 0 0).eng[1].flips = [] ∧
    (ctxOf (poster 0 0) 1 0).cfg.getLsbD 24 = false ∧ (ctxOf (poster 0 0x1000000) 1 0).cfg.getLsbD 24 = true ∧
    (poster 0 0).eng[1].ctxCell = false ∧ (formed .active).pair.st = .inStep := by decide

/-- Cell 16 in a mode, with its queues. -/
def cell16 (f : PinCell → PinCell) : Device := onPin up 16 f
theorem test_witness_pin_cells : pinFinishes (cell16 (fun q => { q with cfg := 3 })) 16 = true ∧
    absorbed (cell16 (fun q => { q with cfg := 3 })) 16 = false ∧ (pinAt (cell16 (fun q => { q with cfg := 3 })) 16).cfg.toNat % 8 = 3 ∧
    (let d := cell16 (fun q => { q with cfg := 4, busy := true })
     (pinAt d 16).cfg.toNat % 8 = 4 ∧ (pinAt d 16).busy = true) ∧
    (let d := cell16 (fun q => { q with cfg := 2, txq := [9] })
     pinRuns d 16 = true ∧ absorbed d 16 = false ∧ (pinAt d 16).cfg.toNat % 8 = 2 ∧ (pinAt d 16).busy = false ∧
     (pinAt d 16).txq = 9 :: []) ∧
    (let d := cell16 (fun q => { q with cfg := 5 })
     (pinAt d 16).cfg.toNat % 8 = 5 ∧ edgeMatches (pinAt d 16) true = true) ∧
    (let d := cell16 (fun q => { q with cfg := 4 })
     (pinAt d 16).cfg.toNat % 8 = 4 ∧ (pinAt d 16).busy = false ∧ edgeMatches (pinAt d 16) true = true) ∧
    edgeMatches (pinAt up 16) false = false ∧
    absorbed (onPin (cell16 id) 16 (fun q => { q with cfg := 2 }) |> fun d => { d with eng := d.eng }) 16 = false := by decide

theorem test_witness_image : up.img.image = none ∧ up.img.held = none ∧
    ({ up with img := { up.img with image := some [] } } : Device).img.image ≠ none ∧
    (let d := { up with img := { up.img with held := some 3 } }
     d.img.held = some 3 ∧ d.img.drained = false ∧ districtDrained d 3 = true) ∧
    ({ up with img := { up.img with held := some 3, drained := true } } : Device).img.drained = true := by decide

/-- A request frame with its CRC. -/
def req (code : Byte) (p : List Byte) : NspReq :=
  let q : NspReq := ⟨1, 0, 0x800000000000, p, 0⟩
  { q with crc := crc16 (requestBody code q) }
theorem test_request_crc (code : Byte) (p : List Byte) : (req code p).crc = crc16 (requestBody code (req code p)) := by
  simp only [req, requestBody]
theorem test_witness_service : up.svc.waiting = none ∧
    ({ up with svc := { up.svc with waiting := some (0x01, 1, 0, [], []) } } : Device).svc.waiting ≠ none ∧
    available up 0x16 (req 0x16 []) = false ∧ knownCode 0x16 = false ∧ available up 0x01 (req 0x01 [0]) = true ∧
    up.svc.nspQueue = [] ∧ (req 0x15 []).payload = [] ∧ (req 0x15 []).addr = 0x800000000000#48 ∧
    leAt (req 0x14 [2, 0, 0, 0]).payload 0 1 ≠ 1 := by decide +kernel
theorem test_witness_bad_crc (code : Byte) (q : NspReq) : ∃ v, ({ q with crc := v } : NspReq).crc ≠
    crc16 (requestBody code { q with crc := v }) := ⟨crc16 (requestBody code q) + 1, by simp [requestBody]⟩
theorem test_witness_read_write : (req 0x01 []).payload.length ≠ 1 ∧ 64 < leAt (req 0x01 [64]).payload 0 1 + 1 ∧
    leAt (req 0x01 [63]).payload 0 1 + 1 ≤ 64 ∧ (req 0x01 [63]).addr.toNat / 2 ^ 30 = 2 ^ 17 ∧
    (req 0x01 [63]).addr.toNat % 2 ^ 30 % 4 = 0 ∧ ({ req 0x01 [0] with addr := 0x800000000001 } : NspReq).addr.toNat % 2 ^ 30 % 4 ≠ 0 ∧
    (0x240000000 : BitVec 48).toNat < 2 ^ 40 ∧ stationValid up = false ∧
    routeTo up (BitVec.ofNat 10 ((0x240000000 : BitVec 48).toNat / 2 ^ 30)) = none ∧ up.svc.recovery = false ∧
    (req 0x02 [1, 2, 3, 4]).payload.length % 4 = 0 ∧ (req 0x02 [1]).payload.length % 4 ≠ 0 := by decide +kernel
/-- A session of the service port's over 64 bytes, of which so many are written. -/
def session (w : Nat) : Device :=
  { up with svc := { up.svc with session := some { owner := ownerOf .port, length := 64, written := w, last := none, due := 0 } } }
theorem test_witness_sessions : up.svc.session = none ∧ up.svc.trial = false ∧
    ({ up with svc := { up.svc with trial := true } } : Device).svc.trial = true ∧
    leAt [60, 0, 0, 0] 0 4 < 64 ∧ leAt [64, 0, 0, 0] 0 4 = 64 ∧ leAt [0, 0, 0x80, 0] 0 4 = 0x800000 ∧
    ({ up with svc := { up.svc with sfdpOk := true } } : Device).svc.sfdpOk = true ∧
    slotField up (otherSlot up) 32 = 0xFFFFFFFF#32 ∧ ownerOf .port ≠ ownerOf (.station 9) ∧ up.flash.broken = false := by
  decide +kernel
theorem test_witness_chunks : leAt [0, 0, 0, 0, 1, 2, 3, 4] 0 4 = 0 ∧ 0 + [(1 : Byte), 2, 3, 4].length ≤ 64 ∧
    reached (session 0).tim.raw 0 = true ∧ reached (session 0).tim.raw 1 = false ∧ (0 : Nat) ≠ 64 ∧
    leAt [4, 0, 0, 0, 1, 2, 3, 4] 0 4 ≠ 0 := by decide +kernel
/-- Slot B closed, or armed with 10 s. -/
def closedB : Device := { up with flash := { up.flash with bytes := [(0x800020, 0), (0x800021, 0), (0x800022, 0), (0x800023, 0)] } }
def armedB : Device :=
  { up with flash := { up.flash with bytes := [(0x800020, 0), (0x800021, 0), (0x800022, 0), (0x800023, 0), (0x800028, 10), (0x800029, 0)] } }
theorem test_witness_slots : otherSlot closedB = true ∧ armable closedB (otherSlot closedB) = true ∧
    armedNow armedB (otherSlot armedB) = true ∧ armedNow closedB (otherSlot closedB) = false ∧
    armable armedB (otherSlot armedB) = false ∧ leAt [1, 0, 10, 0] 2 2 = 10 ∧ leAt [1, 0, 0x10, 0x0E] 2 2 = 3600 ∧
    leAt [1, 0, 9, 0] 2 2 < 10 ∧ 3600 < leAt [1, 0, 0x11, 0x0E] 2 2 ∧ closedB.pair.role = .unpaired := by decide +kernel
theorem test_witness_close : (session 64).svc.session =
    some { owner := ownerOf .port, length := 64, written := 64, last := none, due := 0 } := rfl
theorem test_witness_tunnel : dropOf (waiting 13 [8, 0, 0, 1]) .east = { request 13 2 with payload := [8, 0, 0, 1] } :: [] ∧
    leAt [8, 0, 0, 1] 2 1 = 0 ∧ 0 < leAt [8, 0, 0, 1] 3 1 := ⟨rfl, by decide⟩

theorem test_witness_resets : Up (on up) ∧ Vaon (on up) ∧
    ({ up with svc := { up.svc with restartDue := .due 0, trialEnd := some 0 } } : Device).svc.restartDue = .due 0 ∧
    up.svc.restartDue = .none ∧ reached up.tim.raw 0 = true ∧ reached up.tim.raw 1 = false := by decide
theorem test_witness_start_up : Vaon State.reset ∧ State.reset.dev.glb.latUp = false ∧ State.reset.dev.flash.sfdp = true ∧
    32 ≤ State.reset.dev.flash.density.toNat ∧ slotUsable State.reset.dev false = false ∧
    slotUsable State.reset.dev true = false ∧ ({ up with glb := { up.glb with loaded := true } } : Device).glb.loaded = true ∧
    up.glb.inService = false ∧ up.ring.en = false ∧ up.img.lineSet[3] = .off := by decide +kernel
theorem test_witness_standby : up.svc.ledBusy = none ∧ up.glb.tagPending = false ∧
    ({ up with glb := { up.glb with tagPending := true } } : Device).glb.tagPending = true ∧
    ({ up with svc := { up.svc with ledBusy := some [] } } : Device).svc.ledBusy = some [] ∧
    ({ up with flash := { up.flash with broken := true } } : Device).flash.broken = true ∧ up.glb.stbyWait = false ∧
    up.svc.trial = false := by decide
theorem test_witness_registers : (2 : Nat) ≠ 4 ∧ (0x10001 : Offs).toNat % 4 ≠ 0 ∧ mapped up 0x3FFFFFFC = false ∧
    (0x10FFFFFC : Offs).toNat = 0x10000000 + 4 * (0x3FFFFF : BitVec 22).toNat ∧ (0x10028 : Offs).toNat = 0x10028 ∧
    mapped up 0x400010 = true ∧ up.svc.recovery = false ∧ chanOff 63 0x204 < 2 ^ 30 := by decide
theorem test_witness_wide_register : (0x200100 : Nat) % 4 = 0 ∧ mapped up 0x200100 = true ∧ specialRead up 0x200100 = none ∧
    (0x200100 : Nat) ≠ 0x400074 ∧ (wideReg up 0x200100).isSome = true := by decide
theorem test_witness_still : State.reset.dev.glb.latUp = false ∧ ofTheLattice .peakClear = true ∧
    ∃ t, exec .peakClear State.reset = .next t := ⟨rfl, rfl, _, rfl⟩

/-! ### Witnesses of the further clauses -/

theorem test_witness_step : up.glb.latUp = true ∧ up.tim.incs = [] ∧ (timed (fun t => { t with incs := [⟨1, none⟩] })).tim.incs ≠ [] ∧
    State.reset.dev.glb.latUp = false := by decide
/-- The station's clock ticks once in an idle step. -/
theorem test_step_ticks : (match step (on up) with | .next t => t.dev.tim.raw | _ => 0) = 1 := by decide
theorem test_witness_inh : driving.glb.stby = false ∧ (chan driving 3).line.state ≠ .sleep ∧ (chan driving 3).line.state ≠ .off ∧
    dieOf 3 = dieOf 3 ∧ Up (on up) ∧ up.svc.recovery = false := by decide
/-- A data frame for the wake: no byte, or one byte 1. -/
def wakeFrame (dlc : BitVec 4) (bs : List Byte) : Frame := ⟨0, false, false, false, false, false, dlc, bs⟩
/-- Channel 3 asleep with a wake-up frame of DLC 1 and a data mask. -/
def wakesOn (mask : BitVec 64) : Device := onWake asleep 3 (fun w => { w with use := { w.use with cfg := 0x10003, dmask := mask } })
theorem test_witness_wake_frame : (wakeFrame 0 []).dlc.toNat = fld (chan asleep 3).wake.use.cfg 16 4 ∧ (wakeFrame 0 []).dlc = 0 ∧
    (wakeFrame 1 [1]).dlc.toNat = fld (chan (wakesOn 1) 3).wake.use.cfg 16 4 ∧ (chan (wakesOn 0) 3).wake.use.dmask = 0 ∧
    (chan (wakesOn 1) 3).wake.use.dmask.getLsbD (0 : Fin 64).val = true ∧
    ((fitTo 8 (wakeFrame 1 [1]).data).getD (0 / 8) 0).getLsbD (0 % 8) = true ∧ (wakeFrame 1 [1]).fdf = false ∧
    (wakeFrame 1 [1]).rtr = false ∧ (wakeFrame 1 [1]).ide = (chan (wakesOn 1) 3).wake.use.cfg.getLsbD 6 := by decide
/-- A frame of the wrong DLC does not wake. -/
theorem test_wake_needs_dlc : exec (.wufRecognised 3 0 (wakeFrame 0 [])) (on (wakesOn 0)) = .next (on (wakesOn 0)) := by rfl

/-- Resource r owned by a requester. -/
def owned (r : ResNo) (x : Requester) (d : Device) : Device := onArb d r (fun a => { a with owner := some x })
theorem test_witness_start_still : (chan driving 3).line.moving = false ∧
    (chan (onLine driving 3 (fun l => { l with moving := true })) 3).line.moving ≠ false ∧
    BankFree (entry5 { st := .ready } driving) (qChan 3, .queue) (lqPlace driving 3 5 0) ∧
    ¬ BankFree (owned 8 (70, .whole) (entry5 { st := .ready } driving)) (qChan 3, .queue) (lqPlace driving 3 5 0) ∧
    lqOffered (owned 8 (70, .whole) (entry5 { st := .ready } driving)) 3 = some 5 ∧
    (let d := onLq driving 3 (fun q => { q with ents := [(4, { st := .onBus, closing := true }), (5, { st := .ready })] })
     lqOffered d 3 = some 5 ∧ (4 : LqIdx) ≠ 5 ∧ (lqEnt d 3 4).closing = true ∧ (lqEnt d 3 4).st = .onBus) := by decide
/-- Frame engine settings of channel 3 in force. -/
def setUse (v : BitVec 3) (d : Device) : Device := onFe d 3 (fun f => { f with cfgUse := v })
/-- An FD frame with BRS of one byte. -/
def frameFd : Frame := { frame1 with fdf := true, brs := true }
theorem test_witness_frame_forms : frameFd.data.length = frameLen frameFd ∧ frameFd.fdf = true ∧
    (chan (setUse 0 receiving) 3).fe.cfgUse.getLsbD 0 = false ∧ (chan (setUse 1 receiving) 3).fe.cfgUse.getLsbD 0 = true ∧
    modeOf (setUse 1 receiving) 3 = .driving ∧ modeOf receiving 3 ≠ .idle ∧
    modeOf (onLine receiving 3 (fun l => { l with state := .listen })) 3 ≠ .driving ∧
    modeOf (onLine receiving 3 (fun l => { l with state := .listen })) 3 ≠ .idle := by decide
/-- Channel 3 sends an FD frame with BRS under delay compensation. -/
def sendingFd : Device := setUse 5 (onFe sending 3 (fun f => { f with txFrame := some frameFd }))
theorem test_witness_delay_error : (chan sendingFd 3).fe.activity = .transmitting ∧ (chan sendingFd 3).fe.cfgUse.getLsbD 2 = true ∧
    (chan sendingFd 3).fe.txFrame = some frameFd ∧ modeOf sendingFd 3 ≠ .idle ∧ (chan sendingFd 3).fe.integrated = true ∧
    (ErrKind.tdcRange ≠ .crc) ∧ (chan (setUse 2 receiving) 3).fe.cfgUse.getLsbD 1 = true ∧
    (chan (setUse 2 receiving) 3).fe.cfgUse.getLsbD 0 = false ∧ (chan (setUse 3 receiving) 3).fe.cfgUse.getLsbD 0 = true ∧
    (chan (onFe receiving 3 (fun f => { f with monitored := true })) 3).fe.monitored = true := by decide

/-- Words 0 and 1 of entry 5 of channel 3's launch queue. -/
def worded (w0 w1 : Word) (d : Device) : Device := sramPutWord (sramPutWord d (lqPlace d 3 5 0) w0) (lqPlace d 3 5 1) w1
/-- The first reason that refuses a commit of entry 5. -/
def refusal (d : Device) : Option Nat :=
  (([(decide ((lqEnt d 3 5).st ≠ .free), 4), (!mayDrive (chan d 3).fe.role, 5), (shadowFor d 3, 6), (!lqFormatOk d 3 5, 7),
    ((lqWord d 3 5 1).getLsbD 4 && !(chan d 3).fe.feCfg.getLsbD 0, 8), (!lqStampOk d 3 5, 9)] : List (Bool × Nat)).find?
      (·.1)).map (·.2)
theorem test_witness_refusals : refusal (entry5 { st := .ready } driving) = some 4 ∧
    refusal (onFe driving 3 (fun f => { f with role := .off })) = some 5 ∧
    refusal { driving with pair := { driving.pair with role := .shadow } } = some 6 ∧ refusal (worded 0x80000000 0 driving) = some 7 ∧
    refusal (onFe (worded 0 0x10 driving) 3 (fun f => { f with feCfg := 0 })) = some 8 ∧ refusal (worded 0 0x400 driving) = some 9 ∧
    refusal driving = none := by decide
theorem test_witness_cancels : (let d := onLq (entry5 { st := .waiting } driving) 3 (fun q => { q with cancels := [none, some 5] })
     (chan d 3).lq.cancels = none :: [some 5] ∧ (lqEnt d 3 5).closing = false ∧ (lqEnt d 3 5).st = .waiting ∧
     (lqEnt d 3 6).st = .free ∧ (5 : LqIdx) ≠ ballotIdx d 3) ∧ (lqEnt driving 3 5).closing = false := by decide
theorem test_witness_journal_banks : BankFree staged (qChan 3, .journal) (jPlace (chan staged 3).jn (chan staged 3).jn.wr) ∧
    ¬ BankFree (owned 0 (70, .whole) staged) (qChan 3, .journal) (jPlace (chan staged 3).jn (chan staged 3).jn.wr) ∧
    BankFree filled (qChan 3, .journal) (jPlace (chan filled 3).jn (chan filled 3).jn.wr) ∧
    (chan filled 3).jn.staging = .whole [1, 2, 3, 4] none :: [] ∧
    (let d := onJn sending 3 (fun j => { j with frameWords := 4, frameTotal := 6 })
     (chan d 3).fe.activity ≠ .none ∧ modeOf d 3 ≠ .idle ∧ journalOn d 3 = true ∧ (chan d 3).fe.txFrame = some frame1) := by decide
theorem test_witness_window_read : (chan noted 3).jn.rd ≤ (chan noted 3).jn.wr ∧ (4 : Fin 21).val < (20 : Fin 21).val ∧
    (chan noted 3).jn.wr ≤ (chan noted 3).jn.rd + (4 : Fin 21).val ∧ (chan noted 3).jn.rd + (3 : Fin 21).val < (chan noted 3).jn.wr ∧
    ones (flipsAt noted (jPlace (chan noted 3).jn 0)) ≤ 2 := by decide

/-- The first reason that refuses a ballot of channel 3. -/
def ballotRefusal (d : Device) : Option Nat :=
  (([(!(chan d 3).slp.planValid, 1), (decide ((chan d 3).fe.role ≠ .head), 2),
    (decide ((chan d 3).line.state ≠ .normal) || decide (modeOf d 3 ≠ .driving), 3), (decide ((chan d 3).slp.phase ≠ .idle), 4),
    (decide ((lqEnt d 3 (ballotIdx d 3)).st ≠ .free), 5)] : List (Bool × Nat)).find? (·.1)).map (·.2)
theorem test_witness_ballot_refusals : ballotRefusal driving = some 1 ∧
    ballotRefusal (onFe (balloting .idle driving) 3 (fun f => { f with role := .member })) = some 2 ∧
    ballotRefusal (onLine (balloting .idle driving) 3 (fun l => { l with state := .listen })) = some 3 ∧
    ballotRefusal (balloting .window driving) = some 4 ∧ ballotRefusal (balloting .idle (entry5 { st := .ready } driving)) = some 5 ∧
    ballotRefusal (balloting .idle driving) = none ∧ shadowFor (balloting .idle driving) 3 = false ∧
    (chan (balloting .idle driving) 3).lq.base.isSome = true ∧
    (chan (onSlp (balloting .idle driving) 3 (fun x => { x with reballotAt := some 0 })) 3).slp.reballotAt = some 0 := by decide
theorem test_witness_follow_ends : (chan (balloting .follow driving) 3).slp.phase = .follow ∧
    reached (balloting .follow driving).tim.raw (chan (balloting .follow driving) 3).slp.descentEnd = true ∧
    (chan (balloting .follow driving) 3).line.state = .normal ∧ shadowFor (balloting .follow driving) 3 = false := by decide
theorem test_witness_follower_armed :
    (let d := { onWake follower 3 (fun w => { w with calValid := true }) with glb := { follower.glb with loaded := true } }
     mayFollow d 3 = true ∧ (chan d 3).fe.activity = .receiving ∧ d.glb.loaded = true ∧ (chan d 3).wake.calValid = true ∧
     (d.tim.raw - (chan d 3).wake.calRaw).toNat ≤ 10 * msTicks) ∧ (chan (committing false false) 3).line.state = .normal := by decide

theorem test_witness_held_writes :
    (let h := fun ws => (timed (fun t => { t with convBusy := true, convRes := some (0, 5), convHeld := ws })).tim
     (h [.start 1, .frac 2]).convHeld = .start 1 :: [.frac 2] ∧ (h [.ctrl 1, .frac 2]).convHeld = [.ctrl 1, .frac 2] ∧
     (h [.low 1, .start 2]).convHeld = [.low 1, .start 2] ∧ (h []).convRes = some (0, 5) ∧ (h []).inverse = false) := by decide
theorem test_witness_increment_owners : (Src.housekeeper = .housekeeper ∧ up.tim.servoHost = false ∧ up.pair.role ≠ .shadow) ∧
    (Src.service ≠ .housekeeper ∧ (timed (fun t => { t with servoHost := true })).tim.servoHost = true) ∧
    (pairing (fun p => { p with role := .shadow }) up).pair.role = .shadow ∧
    (let d := timed (fun t => { t with pairInc := true, servoAt := some 0, raw := 16000000 })
     d.tim.masterLost = false ∧ d.tim.pairInc = true ∧ d.tim.servoAt = some 0 ∧
     d.tim.beaconMs.toNat * msTicks ≤ (d.tim.raw - 0).toNat) ∧
    ¬ ((timed (fun t => { t with servoAt := some 0, raw := 15999999 })).tim.beaconMs.toNat * msTicks ≤ ((15999999 : Raw) - 0).toNat) ∧
    up.tim.pairInc = false ∧ (timed (fun t => { t with incs := [⟨1, some 1⟩] })).tim.incs = ⟨1, some 1⟩ :: [] := by decide
/-- An estimate that can be used and one that is invalid. -/
def est (ok : Bool) : Est := { valid := ok }
theorem test_witness_master_times : usable (est true) = true ∧ usable (est false) = false ∧ (port joined (sidePort .east)).blockLock = true ∧
    (let d := { joined with tim := { joined.tim with raw := 64000000 } }
     d.tim.lossN.toNat * d.tim.beaconMs.toNat * msTicks ≤ (d.tim.raw - d.tim.beaconAt).toNat) ∧
    ¬ (joined.tim.lossN.toNat * joined.tim.beaconMs.toNat * msTicks ≤ ((63999999 : Raw) - joined.tim.beaconAt).toNat) := by decide
theorem test_witness_reference : (reference { joined with lat := { joined.lat with trained := true } } = 3) ∧
    reference { joined with lat := { joined.lat with trained := true }, tim := { joined.tim with masterSt := 9 } } = 2 ∧
    reference { joined with lat := { joined.lat with trained := true, learning := true }, tim := { joined.tim with masterSt := 9 } } = 3 ∧
    reference joined = 0 := by decide
theorem test_witness_delay_lanes : (port joined .east).phiDone = true ∧ (port joined .east).blockLock = true ∧
    (port joined .east).st ≠ .down ∧ (port joined .east).st ≠ .miswired ∧
    (port (ringed (fun r => { r with mirror := { r.mirror with st := .training, phiDone := true, blockLock := true } })) .mirror).st =
      .training := by decide

theorem test_witness_retrains : joined.ring.en = true ∧ (port joined .east).modAbs = false ∧ (port joined .west).modAbs = false ∧
    (Port.mirror = .mirror ∧ up.svc.recovery = false) ∧ (port up .mirror).modAbs = false ∧
    (port (ringed (fun r => { r with en := true, east := { r.east with st := .training, blockLock := true } })) .east).phiDone = false := by
  decide
theorem test_witness_lane_lock : (port up (sidePort .east)).blockLock = false ∧ ¬ (port up (sidePort .west)).blockLock = true ∧
    (let d := ringed (fun r => { r with en := true, east := { r.east with st := .training, phiDone := true, blockLock := true } })
     (port d (sidePort .east)).st = .training ∧ (port d (sidePort .east)).phiDone = true ∧ d.ring.en = true ∧
     (port d (sidePort .east)).blockLock = true) ∧
    (let d := ringed (fun r => { r with wrapWest := true, west := { r.west with st := .up, blockLock := true, unwraps := 1 } })
     (port d (sidePort .west)).st = .up ∧ wrapped d .west = true ∧ (port d (sidePort .west)).unwraps ≠ 0) ∧
    (let d := ringed (fun r => { r with east := { r.east with st := .up, blockLock := true, spanDowns := 2 } })
     (port d (sidePort .east)).spanDowns = 2 ∧ (port d (sidePort .east)).st ≠ .down ∧ (port d (sidePort .east)).blockLock = true) := by
  decide
theorem test_witness_join_states : joined.ring.join = .joined ∧ (ringed (fun r => { r with join := .collision })).ring.join = .collision ∧
    wrapped joined .east = false ∧ ({ joined with glb := { joined.glb with ringMs := 7 } } : Device).glb.ringMs ≠ 0x3FF#10 := by decide
theorem test_witness_session_owner :
    (let x : Session := { owner := (9 : BitVec 10).setWidth 11, length := 64, written := 0, last := none, due := 0 }
     ({ joined with svc := { joined.svc with session := some x } } : Device).svc.session = some x ∧
     x.owner = (from9 (cellOf [])).src.setWidth 11) := by decide
theorem test_witness_request_types : (∀ t : BitVec 6, t ∈ [1, 3, 5, 6] → t = 1 ∨ t = 3 ∨ t = 5 ∨ t = 6) ∧
    (request 1 2).src ≠ joined.ring.station ∧ (request 1 2).bcast = false ∧ (request 1 2).pair = false ∧ (request 5 2).ctype ≠ 8 ∧
    (request 6 2).ctype ≠ 1 ∧ (request 6 2).ctype ≠ 3 ∧ 2 ^ 30 ≤ leAt [0, 0, 0, 0x40] 0 4 ∧ leAt [0xFC, 0xFF, 0xFF, 0x3F] 0 4 < 2 ^ 30 ∧
    leAt [5, 3, 5, 0] 0 1 ≤ 5 ∧ 0 < leAt [1, 3, 5, 0] 0 1 ∧ leAt [1, 3, 5, 0] 2 2 ≠ 0 := by decide
theorem test_witness_lock_lease : reached up.tim.raw 1 = false ∧
    (let d := { joined with locks := [(3, { held := true, owner := 5, leaseEnd := 1 }), (4, { held := true, owner := 9, leaseEnd := 1 })] }
     (lockAt d 3).held = true ∧ reached d.tim.raw (lockAt d 3).leaseEnd = false ∧ (lockAt d 3).owner = d.ring.station ∧
     (lockAt d 4).held = true ∧ (lockAt d 4).owner ≠ d.ring.station ∧ reached d.tim.raw (lockAt d 4).leaseEnd = false) := by decide
theorem test_witness_turns : ((70, .whole) : Requester) ∉ (arbOf up 4).inside ∧ up.img.image = none ∧
    topOf (heldBy (owned 2 (3, .journal) up) (3, .journal)) = some 2 ∧ (3 : Fin 78).val < 64 ∧
    frozen ({ up with con := { up.con with freeze := 4 } }) 2 = true ∧ (∀ x ∈ (arbOf up 2).pending, x.1 ≠ 76) ∧
    (arbOf (owned 2 (72, .whole) up) 2).next = none ∧ (arbOf (owned 2 (72, .whole) up) 2).inside = [] ∧
    (0 : ResNo).val < 16 ∧ (15 : ResNo).val < 16 := by decide

theorem test_witness_mirror_order : (formed .active).ring.mirror.blockLock = true ∧ (formed .active).pair.mirGot = none ∧
    up.ring.mirror.blockLock = false ∧
    (let d := pairing (fun p => { p with mirGot := some 4 }) (formed .shadow)
     d.pair.mirGot = some 4 ∧ (5 : BitVec 16) = 4 + 1 ∧ (6 : BitVec 16) ≠ 4 + 1 ∧ d.pair.st = .inStep ∧ d.pair.role = .shadow) := by decide
theorem test_witness_epochs : (formed .active).pair.role = .active ∧ (formed .active).pair.fenced = false ∧ (beat 1 0).role = 1 ∧
    (beat 1 0).digest = (formed .active).pair.digest ∧ (formed .active).pair.st ≠ .mismatch ∧
    laterThan (pairing (fun p => { p with epoch := 1 }) (formed .active)).pair.epoch (beat 1 0).pairEpoch = true ∧
    ({ beat 1 0 with pairEpoch := 128 } : HbMsg).pairEpoch = (formed .active).pair.epoch + 128 ∧ (beat 2 1).role ≠ 1 := by decide
theorem test_witness_checks : (pairing (fun p => { p with check := some (4, false) }) (formed .active)).pair.check = some (4, false) ∧
    (formed .active).pair.role = .active ∧ (formed .shadow).pair.role = .shadow ∧ (formed .shadow).pair.st ≠ .mismatch ∧
    (pairing (fun p => { p with check := some (4, false) }) (formed .shadow)).pair.check ≠ none := by decide
theorem test_witness_formings :
    (let d := pairing (fun p => { p with role := .forming }) up
     d.pair.role = .forming ∧ d.ring.mirror.st ≠ .up ∧ d.ring.join ≠ .joined ∧ d.pair.formRing = false) ∧
    up.pair.role ≠ .forming ∧ (formed .forming).ring.mirror.st = .up ∧ joined.ring.join = .joined ∧
    (let d := pairing (fun p => { p with st := .resync, resyncSent := true, mirGot := some 4 }) (formed .shadow)
     (d.pair.role = .active ∨ d.pair.role = .shadow) ∧ d.pair.st = .resync ∧ d.pair.resyncSent = true ∧
     d.ring.mirror.blockLock = true ∧ ∀ l, d.pair.mirGot = some l → (5 : BitVec 16) = l + 1) := by
  refine ⟨by decide, by decide, by decide, by decide, by decide, by decide, by decide, by decide, fun l h => ?_⟩
  simp only [pairing, Option.some.injEq] at h
  subst h
  rfl
theorem test_witness_copies : (chan (onLq (formed .shadow) 4 (fun q => { q with base := some 0x800000 })) 4).lq.base.isSome = true ∧
    (formed .shadow).pair.held.getLsbD (4 : ChanNo).val = false ∧ (formed .shadow).pair.st = .inStep := by decide
/-- The first reason that refuses a castling of channel 3. -/
def castleRefusal (d : Device) : Option (BitVec 4) :=
  (([(decide (d.pair.role = .unpaired ∨ d.pair.role = .forming), 6), (decide (d.pair.st ≠ .inStep), 2),
    (decide ((chan d 3).fe.fcState = .busOff) ||
      (if d.pair.held.getLsbD 3 then d.pair.peerLocal.getLsbD 3 else d.pair.fcLocal.getLsbD 3), 3),
    (!mayDrive (chan d 3).fe.role, 4), (decide (d.pair.castling ≠ none), 5)] : List (Bool × BitVec 4)).find? (·.1)).map (·.2)
/-- That pair with channel 3 driving. -/
def formedHead (r : PairRole) (f : Pair → Pair) : Device := pairing f (onFe (formed r) 3 (fun x => { x with role := .head }))
theorem test_witness_castle_refusals : castleRefusal up = some 6 ∧ castleRefusal (formedHead .active (fun p => { p with st := .resync })) = some 2 ∧
    castleRefusal (formedHead .active (fun p => { p with peerLocal := 8 })) = some 3 ∧
    castleRefusal (formedHead .shadow (fun p => { p with held := 0, fcLocal := 8 })) = some 3 ∧
    castleRefusal (onFe (formedHead .active id) 3 (fun x => { x with fcState := .busOff })) = some 3 ∧
    castleRefusal (formed .active) = some 4 ∧ castleRefusal (formedHead .active (fun p => { p with castling := some .whole })) = some 5 ∧
    castleRefusal (formedHead .active id) = none ∧ castleRefusal (formedHead .shadow (fun p => { p with held := 0 })) = none ∧
    (formed .active).pair.giving.getLsbD (3 : ChanNo).val = false := by decide

theorem test_witness_port_banks : BankFree (running 0 0 id) (portReq 1) 0 ∧ ¬ BankFree (owned 0 (70, .whole) (running 0 0 id)) (portReq 1) 0 ∧
    (running 0 0 id).eng[1].port = none ∧ (ctxOf (running 0 bindChannel (fun x => { x with wait := .done [] })) 1 0).wait = .done [] := by
  decide
theorem test_witness_converter : (onEng (running 0 0 id) 1 (fun e => { e with conv := some 3 })).eng[1].conv = some 3 ∧ (3 : CtxNo) ≠ 0 ∧
    (running 0 0 id).eng[1].conv = none := by decide
theorem test_witness_texts : Turn (on (running (encR 0x35 2 4 1 3 0) 0 id)) 1 0 (encR 0x35 2 4 1 3 0) ∧
    Turn (on (running (encI 0x2C 1 2 0) bindChannel id)) 1 0 (encI 0x2C 1 2 0) ∧
    Turn (on (running (encI 0x28 0 1 0) bindPins id)) 1 0 (encI 0x28 0 1 0) ∧
    Turn (on (running (encB 0x16 1 2 0 7) 0 id)) 1 0 (encB 0x16 1 2 0 7) ∧
    Turn (on (running (encR 0x38 0 1 2 3 13) 0 id)) 1 0 (encR 0x38 0 1 2 3 13) ∧
    Turn (on (running (encI 0x39 0 0 0) 0x1000000 id)) 1 0 (encI 0x39 0 0 0) := by decide
/-- Cell 17 samples on the edges of cell 16. -/
def clocked : Device := onPin up 17 (fun q => { q with cfg := 3 })
theorem test_witness_pin_samples : (∀ q : PinNo, samplesAt up 16 true q = false) ∧ samplesAt clocked 16 true 17 = true ∧
    pinFinishes (onEng (running 0 bindPins id) 1 (fun e => { e with st := .stopped })) 16 = false ∧ (pinAt up 16).cfg.toNat % 8 ≠ 3 ∧ (pinAt up 16).cfg.toNat % 8 ≠ 4 ∧ (pinAt up 16).busy = false := by
  decide +kernel
theorem test_witness_drains : (let d := { up with img := { up.img with held := some 3, image := some [], drained := true } }
     d.img.held = some 3 ∧ d.img.drained = true ∧ d.img.image = some []) ∧
    (let d := { up with img := { up.img with held := some 3, holdAt := 0 }, tim := { up.tim with raw := 16000000 } }
     d.img.held = some 3 ∧ d.img.drained = false ∧
     reached d.tim.raw (d.img.holdAt + BitVec.ofNat 64 (d.img.holdMs.toNat * 160000)) = true) ∧
    reached (15999999 : Raw) ((0 : Raw) + BitVec.ofNat 64 (up.img.holdMs.toNat * 160000)) = false ∧
    (let x : BallotSave := ⟨3, (chan driving 3).slp, (chan driving 3).wake, {}⟩
     ({ driving with img := { driving.img with saveBal := [x] } } : Device).img.saveBal = [x] ∧ (chan driving x.chan).slp.phase = .idle) ∧
    up.img.save = [] ∧ up.img.saveBal = [] := by decide
theorem test_witness_named_window : (let d := { numbered with ring := { numbered.ring with numbered := true } }
     d.ring.numbered = true ∧ (0x140000000 : BitVec 48).toNat / 2 ^ 30 = (ownNumber d).toNat) ∧ up.svc.waiting = none ∧
    (List.replicate 257 (0 : Byte)).length = 257 ∧ (1 : Nat) % 4 ≠ 0 := by decide +kernel
theorem test_witness_chunk_edges : (session 64).flash.broken = false ∧ up.svc.sfdpOk = false ∧
    (∃ a : Nat, ¬ (slotBase true + 0 ≤ a ∧ a < slotBase true + 0 + 4) ∧ a / 65536 ≠ slotBase true / 65536) ∧
    (0 < 32 ∨ 64 ≤ 0) ∧ 0 ≤ (0 + 3) / 65536 * 65536 ∧ (4 + 0) / 65536 * 65536 < 4 :=
  ⟨by decide, by decide, ⟨0, by decide, by decide⟩, by decide, by decide, by decide⟩
theorem test_witness_trial : ({ up with svc := { up.svc with trial := true, slot := false } } : Device).svc.trial = true ∧
    up.flash.broken = false ∧ up.svc.session = none ∧ (leAt [3, 1, 0, 0] 1 1) % 2 = 1 ∧ leAt [3, 1, 0, 0] 0 1 = 3 ∧
    leAt [2, 0, 0, 0] 0 1 = 2 ∧ leAt [2, 0, 0, 0] 1 1 % 2 = 0 := by decide
theorem test_witness_ledger : up.svc.ledBusy = none ∧ up.glb.tagPending = false ∧ up.glb.stbyWait = false ∧ up.flash.broken = false ∧
    ({ up with svc := { up.svc with ledBusy := some [] } } : Device).svc.ledBusy = some [] ∧ up.svc.trial = false := by decide
theorem test_witness_widths : ((3 : Nat) ≠ 4) ∧ mapped up 0x3FFFFFFC = false ∧ (0x3FFFFFFC : Nat) % 4 = 0 ∧ up.svc.recovery = false ∧
    (0x24 : Offs).toNat = 8 + 4 * (7 : Fin 8).val ∧ (0x801000 : Offs).toNat = 0x801000 + 0x10000 * (0 : EngNo).val + 4 * (0 : Fin 1024).val ∧
    up.img.held ≠ some ((3 : ChanNo).val / 8 + 1) ∧ chanOff 3 0x08 < 2 ^ 30 := by decide

/-! ### Witnesses of the clauses about turns, waits and timers -/

/-- A start-up of slot A between its steps. -/
def booting (phase : BitVec 3) : Device := { up with glb := { up.glb with boot := some ⟨false, 0⟩, phase := phase } }
theorem test_witness_start_up_steps : (booting 1).glb.boot = some ⟨false, 0⟩ ∧ (booting 1).glb.phase = 1 ∧ (booting 2).glb.phase = 2 ∧
    ((booting 2).tim.incs = [] ∧ (booting 2).ring.east.spanDownTx = false ∧ (booting 2).ring.west.spanDownTx = false) ∧
    (ledgerStep (booting 2) []).isSome = true ∧ (booting 3).glb.phase = 3 ∧ (booting 3).svc.trial = false ∧
    (booting 3).flash.broken = false ∧ up.glb.boot = none := by decide +kernel
/-- The header of slot A with its magic, no resident code, the closed mark, and the words given of its marks. -/
def slotA (trial committed : Byte) (d : Device) : Device :=
  { d with flash := { d.flash with bytes := (
      [(0, 0x45), (1, 0x4C), (2, 0x53), (3, 0x54), (4, 0), (5, 0), (6, 0), (7, 0), (8, 0), (9, 0), (10, 0), (11, 0), (12, 0), (13, 0),
       (14, 0), (15, 0), (32, 0), (33, 0), (34, 0), (35, 0)] ++ (List.range 4).map (fun i => (44 + i, trial))
      ++ (List.range 4).map (fun i => (48 + i, committed))) } }
/-- That slot with a trial armed for 10 s and not begun. -/
def armedA : Device :=
  let d := slotA 0xFF 0xFF State.reset.dev
  { d with flash := { d.flash with bytes := d.flash.bytes ++ [(40, 10), (41, 0)] } }
theorem test_witness_slot_starts : slotUsable (slotA 0xFF 0 State.reset.dev) false = true ∧ slotUsable (slotA 0xFF 0 State.reset.dev) true = false ∧
    slotMark (slotA 0xFF 0 State.reset.dev) false 48 = true ∧ trialArmed (slotA 0xFF 0 State.reset.dev) false = false ∧
    slotUsable armedA false = true ∧ slotUsable armedA true = false ∧ slotMark armedA false 44 = false ∧ trialArmed armedA false = true ∧
    slotMark (slotA 0 0xFF State.reset.dev) false 44 = true ∧ slotMark (slotA 0 0xFF State.reset.dev) false 48 = false ∧
    slotMark (slotA 0 0xFF State.reset.dev) true 32 = false := by decide +kernel
theorem test_witness_service_due : up.ring.en = false ∧
    (let d := { up with glb := { up.glb with loaded := true, acquired := true, phase := 5 }, ring := { up.ring with en := true } }
     d.glb.loaded = true ∧ d.glb.inService = false ∧ d.glb.acquired = true ∧ d.glb.phase = 5) ∧
    600 * msTicks ≤ (96000000 : Raw).toNat ∧ ¬ (600 * msTicks ≤ (95999999 : Raw).toNat) := by decide

/-- Channel 3 taken out of SLEEP by a line_req at raw value 0. -/
def woke (now : Raw) : Device :=
  let d := onLine (onWake asleep 3 (fun w => { w with armed := false, leftAt := some 0 })) 3 (fun l => { l with state := .normal })
  { d with tim := { d.tim with raw := now } }
theorem test_witness_late_wake : lateWake (woke 159999) 3 159999 = true ∧ lateWake (woke 160000) 3 160000 = false ∧
    (chan (woke 0) 3).wake.use.cfg.getLsbD 0 = true ∧ (chan (woke 0) 3).wake.set.cfg.getLsbD 2 = false ∧ lateWake asleep 4 0 = false ∧
    (chan asleep 4).line.localWake = false := by decide

/-- Channel 3 after a frame that ended valid, its intermission running. -/
def between : Device := onFe driving 3 (fun f => { f with busIdle := false, intermission := true })
theorem test_witness_intermission : idleBus (chan between 3).fe = true ∧ idleBus (chan driving 3).fe = true ∧
    idleBus (chan receiving 3).fe = false ∧ (chan between 3).fe.monitored = false ∧ (chan driving 3).fe.recovering = false ∧
    (chan (onFe between 3 (fun f => { f with monitored := true })) 3).fe.monitored = true := by decide
theorem test_witness_error_fields : (ErrKind.form = .form → (chan (setUse 2 receiving) 3).fe.cfgUse.getLsbD 1 = true →
      BusField.eof ≠ if (chan (setUse 2 receiving) 3).fe.cfgUse.getLsbD 0 = true then BusField.res else .fdf) ∧
    (BusField.res = if (chan (setUse 3 receiving) 3).fe.cfgUse.getLsbD 0 = true then BusField.res else .fdf) ∧
    (BusField.fdf = if (chan (setUse 2 receiving) 3).fe.cfgUse.getLsbD 0 = true then BusField.res else .fdf) ∧
    modeOf (setUse 3 receiving) 3 ≠ .idle ∧ (chan (setUse 3 receiving) 3).fe.integrated = true := by decide
theorem test_witness_own_payload :
    (let d := onJn sending 3 (fun j => { j with frameWords := 4, frameTotal := 6 })
     (chan d 3).fe.txFrame = some frame1 ∧ 4 ≤ (chan d 3).jn.frameWords ∧ (chan d 3).jn.frameWords + 1 < (chan d 3).jn.frameTotal ∧
     (chan d 3).jn.losing = false ∧ stagedWords (chan d 3).jn + 1 ≤ 24) := by decide

/-- The bank that holds channel 3's launch queue, or its journal, owned by another. -/
def queueTaken (d : Device) : Device := owned 8 (70, .whole) d
def journalTaken (d : Device) : Device := owned 0 (70, .whole) d
theorem test_witness_served_queue : Served driving (.lqWin 3 23 7) ∧ ¬ Served (queueTaken driving) (.lqWin 3 23 7) ∧
    Served driving (.commit 3 5) ∧ ¬ Served (queueTaken driving) (.commit 3 5) ∧
    Served (entry5 { st := .ready } driving) (.lqWin 3 0 7) ∧
    Served driving (.read .service (chanOff 3 0x300)) ∧
    ¬ Served { driving with con := { driving.con with access := [.pop 3] } } (.lqWin 3 23 7) := by decide
theorem test_witness_served_journal : Served noted (.pop 3) ∧ ¬ Served (journalTaken noted) (.pop 3) ∧ Served driving (.pop 3) ∧
    Served noted (.window 3 20) ∧ Served noted (.window 3 0) := by decide
theorem test_witness_served_memory : Served up (.mem 0xFFFFFC 1) ∧ ¬ Served (owned 15 (70, .whole) up) (.mem 0xFFFFFC 1) ∧
    Served up (.mem 0 1) := by decide
theorem test_witness_served_locks : (∀ op ∈ [1, 2, 3, 4, 5], Served joined (.lock .service 3 op 5)) ∧
    ¬ Served (owned 19 (70, .whole) joined) (.lock .service 3 1 5) ∧ ¬ Served (owned 19 (70, .whole) joined) (.lock .service 3 5 5) ∧
    Served (pairing (fun p => { p with role := .shadow }) joined) (.lock .service 3 1 5) := by decide
theorem test_witness_served_registers : Served up (.write .service 0x10028 1) ∧ Served up (.read .housekeeper 0x10000000) ∧
    ¬ Served (owned 0 (70, .whole) up) (.write .housekeeper 0x10000000 1) ∧ ¬ Served (owned 0 (70, .whole) up) (.read .service 0x10000000) ∧
    accessBehind up (.read (.ring 9) 0x3FFFFFFC) = false ∧ Served up (.write .service 0x801000 7) := by decide
theorem test_witness_ballot_waits : (chan (balloting .idle driving) 3).lq.base.isSome = true ∧
    ¬ BankFree (queueTaken (balloting .idle driving)) (qChan 3, .queue) (lqPlace (queueTaken (balloting .idle driving)) 3 5 0) ∧
    BankFree (balloting .idle driving) (qChan 3, .queue) (lqPlace (balloting .idle driving) 3 5 0) ∧
    ballotRefusal (queueTaken (balloting .idle driving)) = none := by decide

/-- A moment 160 000 T ticks ago, and one a tick less. -/
theorem test_witness_elapsed : Elapsed up none 5 ∧ (∀ x, some (0 : Raw) = some x → 16000 ≤ ((16000 : Raw) - x).toNat) ∧
    ¬ (∀ x, some (0 : Raw) = some x → 16000 ≤ ((15999 : Raw) - x).toNat) := by
  refine ⟨fun x h => ?_, fun x h => ?_, fun h => ?_⟩
  · cases h
  · cases h; decide
  · exact absurd (h 0 rfl) (by decide)
theorem test_witness_timers : ({ joined with tim := { joined.tim with master := true, masterSt := 5, beaconTx := some 0 } } : Device).tim.beaconTx =
      some 0 ∧ joined.tim.beaconTx = none ∧ joined.tim.pdAt[portIdx .east] = none ∧ (formed .active).pair.beatAt = none ∧
    (pairing (fun p => { p with beatAt := some 0 }) (formed .active)).pair.beatAt = some 0 ∧ up.tim.servoAt = none := by decide
theorem test_witness_edges : joined.tim.raw.setWidth 7 = joined.lat.coinc ∧
    ({ joined with tim := { joined.tim with raw := 1 } } : Device).tim.raw.setWidth 7 ≠ joined.lat.coinc ∧
    (let d := ringed (fun r => { r with bufEast := some { cellOf [] with ctype := 16 } })
     bufOf d .east = some { cellOf [] with ctype := 16 } ∧ d.tim.raw.setWidth 7 = d.lat.coinc ∧ wrapped d .east = false) := by decide

theorem test_witness_drop_turns : canAll (waiting 1 []) (qDrop .east, .whole) (readManyNeeds (waiting 1 []) 0x10000000 1) = true ∧
    canAll (owned 0 (70, .whole) (waiting 1 [])) (qDrop .east, .whole) (readManyNeeds (waiting 1 []) 0x10000000 1) = false ∧
    canAll (waiting 3 []) (qDrop .east, .whole) (writeManyNeeds (waiting 3 []) 0x10000000 [1]) = true ∧
    canAll (owned 0 (70, .whole) (waiting 3 [])) (qDrop .east, .whole) (writeManyNeeds (waiting 3 []) 0x10000000 [1]) = false ∧
    canAll (waiting 6 []) (qDrop .east, .whole) [lockTable] = true ∧
    canAll (owned 19 (70, .whole) (waiting 6 [])) (qDrop .east, .whole) [lockTable] = false ∧ leAt [1, 3, 5, 0] 0 1 ≤ 5 := by decide

/-- One request of this station is outstanding, by its pair or by its station, and the pair's record is known. -/
def asking (r : OutReq) (e : BitVec 8) : Device :=
  { joined with ring := { joined.ring with reqs := [r], pairs := [(0, { active := 9, shadow := 8, epoch := e, valid := true })] } }
/-- A cell that comes back to it for the first time. -/
def back : RCell := { cellOf [] with ctype := 0x31, src := 9, seq := 8, epoch := 4 }
theorem test_witness_returns : (asking outstanding1 4).ring.reqs = [outstanding1] ∧ back.seq = outstanding1.seq ∧ back.retried = false ∧
    back.pair = false ∧ routeTo (asking outstanding1 4) back.src = some .east ∧
    routeTo (asking outstanding1 4) ({ back with src := 11 } : RCell).src = none ∧ ({ back with pair := true } : RCell).pair = true ∧
    ((pairOf (asking outstanding1 4) (outstanding1.cell.dest.toNat % 512)).valid = true ∧
      (pairOf (asking outstanding1 4) (outstanding1.cell.dest.toNat % 512)).epoch = back.epoch) ∧
    (pairOf (asking outstanding1 3) (outstanding1.cell.dest.toNat % 512)).epoch ≠ back.epoch ∧ back.ctype = 0x31 ∧
    (asking outstanding1 4).ring.east.blockLock = true ∧ outstanding1.why = .other := by decide
theorem test_witness_read_parts : ({ cellOf [] with epoch := 0x40 } : RCell).epoch = 0x40 ∧ ({ cellOf [] with epoch := 0x51 } : RCell).epoch = 0x51 ∧
    ({ outstanding1 with parts := [(0, [1])] } : OutReq).parts = [(0, [1])] ∧ outstanding1.cell.ctype = 1 ∧
    ¬ (up.ring.east.blockLock = true ∨ up.ring.west.blockLock = true) ∧
    (let c : RCell := { cellOf [] with ctype := 1, seq := 8 }
     ({ joined with ring := { joined.ring with retry := [(c, 4, 0)] } } : Device).ring.retry = [(c, 4, 0)] ∧ c.ctype = 1 ∧
     c.seq = outstanding1.seq) := by decide

/-- Several requesters wait for bank 2 or for the East add port. -/
def pending (r : ResNo) (xs : List Requester) (d : Device) : Device := onArb d r (fun a => { a with pending := xs })
theorem test_witness_decisions :
    (let d := pending 2 [(72, .whole), (70, .whole)] up
     ((arbOf d 2).pending.find? (fun y => decide (y.1.val = (slotAt d.con.slots 2 0).toNat)) = none ∧
      posAt d.con.ranks 2 70 = 70 ∧ posAt d.con.ranks 2 72 = 72 ∧ (arbOf d 2).next = none)) ∧
    (let d := { pending 2 [(72, .whole), (70, .whole)] up with con := { (pending 2 [(72, .whole), (70, .whole)] up).con with slots := [(512, 72)] } }
     (slotAt d.con.slots 2 0).toNat = 72) ∧
    (let d := { pending 2 [(72, .whole), (76, .whole)] up with con := { (pending 2 [(72, .whole), (76, .whole)] up).con with freeze := 4 } }
     frozen d 2 = true ∧ (arbOf d 2).pending.filter (fun x => decide (x.1 = 76)) = [(76, .whole)]) := by decide
theorem test_witness_add_ports :
    (let d := { pending 17 [(75, .whole)] joined with ring := { joined.ring with outEast := [(75, cellOf [])], east := { joined.ring.east with st := .up } } }
     (arbOf d 17).owner = none ∧ bufOf d .east = none ∧ (arbOf d 17).next = none ∧
     (takeFirst (outOf d .east) 75 (fun c => mayLeave d .east c.ctype)).isSome = true) ∧
    (takeFirst (outOf joined .east) 75 (fun c => mayLeave joined .east c.ctype)) = none ∧
    topOf (heldBy (owned 2 (75, .whole) up) (75, .whole)) = some 2 ∧ rankOf 2 < rankOf 17 ∧
    waitsFor { up with con := { up.con with waits := [⟨(72, .whole), .drop, [19]⟩] } } (72, .whole) 19 = true := by decide
theorem test_witness_inside :
    (let d := onArb up 2 (fun a => { a with owner := some (3, .journal), inside := [(3, .queue)] })
     (arbOf d 2).inside = (3, .queue) :: [] ∧ (arbOf d 2).next = none ∧ outstanding (onArb d 2 (fun a => { a with owner := none })) 3 2 = false) ∧
    (let d := onArb up 2 (fun a => { a with owner := some (3, .journal), next := some (72, .whole) })
     (arbOf d 2).inside.all (fun y => decide (y.1 ≠ 3)) = true ∧ (arbOf d 2).next = some (72, .whole)) := by decide

theorem test_witness_mrx_idle : MrxIdle (on (formed .shadow)) := ⟨rfl, rfl⟩
theorem test_witness_mrx :
    (pairing (fun p => { p with mrxQ := [.holdlog 4 0 noHold] }) (formed .shadow)).pair.mrxQ ≠ [] ∧
    BankFree (onLq (formed .shadow) 4 (fun q => { q with base := some 0x800000 })) mrxReq 0x800000 ∧
    ¬ BankFree (queueTaken (onLq (formed .shadow) 4 (fun q => { q with base := some 0x800000 }))) mrxReq 0x800000 ∧
    canUse (formed .shadow) mrxReq lockTable = true := by decide
theorem test_witness_asked : castlingNow (formed .active) = false ∧ castlingNow (pairing (fun p => { p with asked := true }) (formed .active)) = true ∧
    (formed .active).pair.held ≠ 0 ∧ (formed .shadow).pair.checkDue = false ∧
    (let d := onFe (formed .active) 3 (fun f => { f with role := .head, busIdle := false, intermission := true })
     idleBus (chan d 3).fe = true ∧ lqOnBus d 3 = none ∧ (chan d 3).fe.fcState ≠ .busOff) := by decide

/-- Engine 1 with context 0 stalled for a cause on a word. -/
def stalled (w : Word) (cfg : Word) (cause : BitVec 4) (wt : CtxWait) : Device :=
  onEng (running w cfg (fun x => { x with st := .stalled, cause := cause, wait := wt })) 1
    (fun e => { e with port := if cause = 1 then some 0 else none })
theorem test_witness_stalls : (stalled (encI 0x2C 1 2 0) bindChannel 1 .pending).eng[1].port = some 0 ∧
    (∀ (w : Word) (cause : BitVec 4) (wt : CtxWait), (stalled w bindChannel cause wt).eng[1].st = .run ∧
      (ctxOf (stalled w bindChannel cause wt) 1 0).st = .stalled ∧ (ctxOf (stalled w bindChannel cause wt) 1 0).cause = cause ∧
      (ctxOf (stalled w bindChannel cause wt) 1 0).wait = wt) ∧
    progAt (stalled (encI 0x28 0 1 0) bindPins 3 .pending).eng[1] 0 = encI 0x28 0 1 0 ∧
    progAt (stalled (encI 0x29 1 0 0) bindPins 2 .pending).eng[1] 0 = encI 0x29 1 0 0 ∧
    progAt (stalled (encI 0x37 0 0 5) 0 4 (.until 7)).eng[1] 0 = encI 0x37 0 0 5 ∧
    (stalled (encR 0x38 0 1 2 3 0) 0 6 .pending).eng[1].egress = none ∧ (stalled (encI 0x39 0 0 0) 0x1000000 1 .pending).eng[1].ctxCell = false ∧
    (stalled (encR 0x35 2 4 1 3 0) 0 5 .none).eng[1].conv = none := by
  refine ⟨by decide, fun w cause wt => ⟨rfl, rfl, rfl, rfl⟩, by decide, by decide, by decide, by decide, by decide, by decide⟩
theorem test_witness_port_services :
    (let d := { stalled (encI 0x2C 1 2 0) bindChannel 1 .pending with ch := driving.ch }
     boundChan d 1 0 22 = some 3 ∧ BankFree d (portReq 1) (jPlace (chan d 3).jn (chan d 3).jn.rd) ∧
     ¬ BankFree (journalTaken d) (portReq 1) (jPlace (chan d 3).jn (chan d 3).jn.rd)) ∧
    (let d := { stalled (encI 0x31 1 2 0) bindChannel 1 .pending with ch := driving.ch }
     boundChan d 1 0 23 = some 3 ∧ BankFree d (portReq 1) (lqPlace d 3 0 0) ∧ ¬ BankFree (queueTaken d) (portReq 1) (lqPlace d 3 0 0)) ∧
    BankFree (stalled (encI 0x22 1 2 0) bindChannel 1 .pending) (portReq 1) 0 ∧
    ¬ BankFree (journalTaken (stalled (encI 0x22 1 2 0) bindChannel 1 .pending)) (portReq 1) 0 := by decide
theorem test_witness_stops : (∀ c : CtxNo, (ctxOf (running 0 0 id) 1 c).st = .stalled → (ctxOf (running 0 0 id) 1 c).cause ≠ 4) ∧
    (ctxOf (stalled 0 0 3 .pending) 1 0).cause ≠ 4 := by decide
theorem test_witness_no_route : (addressed (poster 0 0) false 11 8).all (fun way => decide (routeTo (poster 0 0) way.1 = none)) = true ∧
    (poster 0 0).eng[1].egress = none := by decide

/-- Bank B's supply low. -/
def lowB : Device := { up with glb := { up.glb with vioBLow := true } }
theorem test_witness_bank_b : (lowB.glb.vioBLow && decide (64 ≤ (64 : PinNo).val)) = true ∧
    (lowB.glb.vioBLow && decide (64 ≤ (63 : PinNo).val)) = false ∧
    (let d := onPin up 16 (fun q => { q with cfg := 4 })
     (pinAt d 16).cfg.toNat % 8 = 4 ∧ pinRuns d 16 = true ∧ absorbed d 16 = false ∧ (pinAt d 16).busy = false ∧
     edgeMatches (pinAt d 16) true = true) := by decide

/-- The bytes of a structure image, lowest first, from one number. -/
def imageBytes (n v : Nat) : List Byte := leBytes n v
/-- A partial image of one district: its channels, line settings and memory plan. -/
def partD1 : List Byte :=
  imageBytes 64 0x78F3E010000040000000000003D11A1078F3E010000040100000080000300016B500FB700000000000000000000000300086420000002440002010034364C45 ++
  imageBytes 64 0x78F3E010000040000000000003D11A1078F3E010000040000000000003D11A1078F3E010000040000000000003D11A1078F3E010000040000000000003D11A1 ++
  imageBytes 64 0xA20006400020000010000030002BF5E3A9F00000000003D11A1078F3E010000040000000000003D11A1078F3E010000040200000000003D11A1 ++
  imageBytes 64 0xA200064000000000000003C40C80000000000000000000000000000000000000A200064000000000000003C40C8000000000000000000000000 ++
  imageBytes 64 0xA200064000000000000003C40C80000000000000000000000000000000000000A200064000000000000003C40C8000000000000000000000000 ++
  imageBytes 64 0xA200064000200000000003C40C80000000000000000000000000000000000000A200064000000000000003C40C8000000000000000000000000 ++
  imageBytes 64 0x800003000342291ABE00000000003C40C80000000000000000000000000000000000000A200064000000000000003C40C8000000000000000000000000 ++
  imageBytes 64 0x8390000000800000260000000000000083600000008000002400000000000000833000000080000022000000000000008300000000800000200000 ++
  imageBytes 64 0x84500000008000002E0000000000000084200000008000002C0000000000000083F00000008000002A0000000000000083C0000000800000280000 ++
  imageBytes 4 0x3040681E
/-- That image staged. -/
def staged1 : Device :=
  { up with
    img := { up.img with src := 580 }
    sram := { up.sram with bytes := ((List.range 580).map (fun i => (0xF00000 + i, partD1.getD i 0))).filter (fun x => decide (x.2 ≠ 0)) } }
theorem test_image_staged : (List.range 580).map (fun i => sramByte staged1 (staged1.img.stage.toNat + i)) = partD1 := by decide +kernel
set_option maxRecDepth 20000 in
theorem test_image_passes : (validate staged1 partD1 580 true false).1 = none := by decide +kernel
theorem test_witness_apply : staged1.img.image = none ∧ staged1.img.reading = none ∧ staged1.img.held = none ∧
    min staged1.img.src.toNat staged1.img.stageSize.toNat = 580 ∧ maskDistrict (b2 partD1 14) = 3 ∧ staged1.img.stage.toNat % 4 = 0 ∧
    staged1.img.stage.toNat + 580 ≤ 0x1000000 ∧ BankFree staged1 loaderReq staged1.img.stage.toNat ∧
    ¬ BankFree (owned 15 (70, .whole) staged1) loaderReq staged1.img.stage.toNat := by decide +kernel
theorem test_witness_readable : (∀ i, i < 580 → flipsAt staged1 (staged1.img.stage.toNat + i / 4 * 4) = 0) ∧
    (∀ r : ResNo, r.val < 16 → (arbOf staged1 r).owner = none ∧ canUse staged1 loaderReq r = true) := by
  refine ⟨fun i _ => rfl, by decide⟩
theorem test_witness_bad_image : (validate up [] 0 true false).1 = some ⟨0x02, 0, 0, 0⟩ ∧ min up.img.src.toNat up.img.stageSize.toNat = 0 := by
  decide +kernel
/-- An apply of that image whose drain is complete. -/
def applying : Device :=
  { staged1 with img := { staged1.img with held := some 3, image := some (validate staged1 partD1 580 true false).2 } }
set_option maxRecDepth 20000 in
theorem test_witness_drain_ends : applying.img.held = some 3 ∧ applying.img.drained = false ∧ districtDrained applying 3 = true ∧
    applying.img.byHost = false ∧
    (∀ r ∈ movedBanks applying 3 (applying.img.image.getD []), (arbOf applying r).owner = none ∧ mayUse applying loaderReq r = true) ∧
    movedBanks applying 3 (applying.img.image.getD []) ≠ [] := by decide +kernel

theorem test_witness_service_turns : NspFree up .port ∧ NspFree up (.station 9) ∧
    canAll up houseReq (readManyNeeds up 0x10000000 64) = true ∧ canAll (owned 0 (70, .whole) up) houseReq (readManyNeeds up 0x10000000 64) = false ∧
    canAll up houseReq (writeManyNeeds up 0x10000000 [1]) = true ∧
    canAll (owned 0 (70, .whole) up) houseReq (writeManyNeeds up 0x10000000 [1]) = false ∧
    ({ up with svc := { up.svc with recovery := true } } : Device).svc.recovery = true := by decide +kernel
theorem test_witness_restart_answers : (session 64).svc.session ≠ none ∧ leAt [3, 0, 0, 0] 0 1 = 3 ∧ leAt [3, 0, 0, 0] 1 1 % 2 = 0 ∧
    leAt [1, 0, 0, 0] 2 2 = 0 ∧ armable closedB true = true := by decide +kernel

/-! ### Witnesses of the clauses of power, copies, turns and restarts -/

/-- Channel 3 without the sentinel's supply. -/
def dark : Device := { driving with glb := { driving.glb with vaonUp := false } }
theorem test_witness_dark : Up (on dark) ∧ dark.glb.vaonUp = false ∧ (chan dark 3).fe.role ≠ .off ∧ (chan dark 3).fe.role ≠ .listen := by decide
/-- A request in the dark moves no line. -/
theorem test_dark_request : (match exec (.lineReqSleep 3) (on dark) with | .next t => (chan t.dev 3).line.state | _ => .off) = .normal := by decide
theorem test_witness_late_entries : (let d := onJn (woke 0) 3 (fun j => { j with base := some 0x10000 })
     Vaon (on d) ∧ lateWake d 3 0 = true ∧ (chan d 3).wake.use.cfg.getLsbD 0 = true ∧ journalOn d 3 = true ∧
     stagedWords (chan d 3).jn + 9 ≤ 24) ∧
    lateWake (onWake asleep 3 (fun w => { w with wokeTick := some 7 })) 3 7 = false := by decide
/-- The shadow's copy of a channel in bus-off, and the same with its own fault confinement. -/
def busOffCopy (ownFc : BitVec 64) : Device := pairing (fun p => { p with role := .shadow, fcLocal := ownFc }) (busOff 0 false)
theorem test_witness_copied_bus_off : runsFc (busOffCopy 0) 3 = false ∧ (chan (busOffCopy 0) 3).fe.fcState = .busOff ∧
    runsFc (busOffCopy 8) 3 = true ∧ runsFc (busOff 127 true) 3 = true ∧ runsFc (busOff 126 true) 3 = true := by decide
/-- A journal with so much room, and a frame in progress that has written so many words. -/
def tight (wr : Nat) (tent : List Word) : Device := onJn staged 3 (fun j => { j with wr := wr, tent := tent })
theorem test_witness_kept_places : (let j := (chan (tight 0x7FFC []) 3).jn; [(1 : Word), 2, 3, 4].length + jHeld j ≤ jFree j) ∧
    (let j := (chan (tight 0x7FF8 [1, 2, 3]) 3).jn; [(1 : Word), 2, 3, 4].length + jHeld j ≤ jFree j) ∧
    (let j := (chan (tight 0x7FF9 [1, 2, 3]) 3).jn; jFree j < [(1 : Word), 2, 3, 4].length + jHeld j) := by decide
theorem test_witness_follow_pre_arm : (let d := onSlp follower 3 (fun x => { x with phase := .follow })
     mayPreArm d 3 = true ∧ (chan d 3).slp.phase = .follow ∧ (chan d 3).fe.activity = .receiving ∧ (chan d 3).wake.armed = false ∧
     (chan (onWake d 3 (fun w => { w with armed := true })) 3).wake.armed = true) ∧
    (let d := pairing (fun p => { p with role := .shadow }) (balloting .follow driving)
     shadowFor d 3 = true ∧ ballotHere d 3 = true) ∧
    ballotHere (pairing (fun p => { p with role := .shadow }) (balloting .descent driving)) 3 = false := by decide

theorem test_witness_numbered_master : (let d := { joined with
      ring := { joined.ring with numbered := true }, lat := { joined.lat with trained := true }
      tim := { joined.tim with master := true, masterSt := 5 } }
    reference d = 0 ∧ reference { d with ring := { d.ring with numbered := false } } ≠ 0 ∧ d.tim.masterSt = d.ring.station ∧ d.ring.join = .joined) := by
  decide
/-- A peer-delay cell of the mirror lane waits. -/
def delaying (x : DelayCell) (now : Raw) : Device :=
  let d := pairing (fun p => { p with delayOut := [x] }) (formed .shadow)
  { d with ring := { d.ring with mirror := { d.ring.mirror with phiDone := true } }, tim := { d.tim with raw := now } }
theorem test_witness_delay_turns : (∀ (x : DelayCell) (now : Raw), (delaying x now).pair.delayOut = x :: [] ∧
      (delaying x now).ring.mirror.phiDone = true ∧ (delaying x now).ring.mirror.st = .up) ∧
    (delaying .request 0).tim.raw.setWidth 7 = (delaying .request 0).lat.coinc ∧
    (delaying .request 1).tim.raw.setWidth 7 ≠ (delaying .request 1).lat.coinc := by
  refine ⟨fun x now => ⟨rfl, rfl, rfl⟩, by decide, by decide⟩
/-- The device that runs in recovery mode. -/
def recovering (d : Device) : Device := { d with svc := { d.svc with recovery := true } }
theorem test_witness_recovery_ring : (recovering up).ring.en = false ∧ (recovering up).svc.recovery = true ∧
    up.ring.en = false ∧ up.svc.recovery = false := by decide
/-- A cell of a type waits in the East egress buffer, in a join state. -/
def buffered (t : BitVec 6) (j : JoinSt) : Device :=
  { joined with ring := { joined.ring with join := j, bufEast := some { Tests.cellOf [] with ctype := t } } }
theorem test_witness_buffered : mayLeave (buffered 1 .joined) .east 1 = true ∧ mayLeave (buffered 1 .collision) .east 1 = false ∧
    mayLeave (buffered 10 .collision) .east 10 = true ∧ mayLeave (buffered 1 .off) .east 1 = false ∧
    bufOf (buffered 1 .collision) .east = some { Tests.cellOf [] with ctype := 1 } ∧
    (let d := { buffered 5 .off with eng := joined.eng.set 1 { joined.eng[1] with egress := some (Tests.cellOf []) } }
     (d.eng[1].egress.map (·.seq)) = some (Tests.cellOf []).seq) := by decide
theorem test_witness_delivery : (joined.ring.east.blockLock = true ∧ joined.ring.join = .joined) ∧ (buffered 1 .joining).ring.join = .joining ∧
    ¬ ((buffered 1 .collision).ring.join = .joining ∨ (buffered 1 .collision).ring.join = .joined) := by decide

theorem test_witness_one_at_a_time : (let d := onArb up 2 (fun a => { a with pending := [(3, .mirror)] })
     awaits d (3, .mirror) 2 = true ∧ (2 : ResNo) ≠ 16 ∧ heldBy d (3, .mirror) = [] ∧ (∀ h : ResNo, h ≠ 2 → awaits d (3, .mirror) h = false) ∧
     outstanding up 3 2 = false) ∧
    (let d := pairing (fun p => { p with mirOut := [(3, .resync 0)] }) (onArb (formed .active) 16 (fun a => { a with pending := [(3, .mirror)] }))
     (arbOf d 16).next = none ∧ (arbOf d 16).owner = none ∧ (arbOf d 16).pending = (3, .mirror) :: []) := by decide

theorem test_witness_resync_numbers : (let p := (pairing (fun p => { p with st := .resync, resyncNo := 4 }) (formed .active)).pair
     p.st = .resync ∧ (4 : BitVec 8) = p.resyncNo ∧ (3 : BitVec 8) ≠ p.resyncNo ∧ p.resyncSent = false) ∧
    (formed .active).pair.st ≠ .resync ∧
    (let d := pairing (fun p => { p with st := .resync, mirGot := some 4 }) (formed .shadow)
     d.ring.mirror.blockLock = true ∧ d.pair.mirGot = some 4 ∧ (6 : BitVec 16) ≠ 4 + 1) := by decide
theorem test_witness_abroad : (let d := onLq (formed .shadow) 4 (fun q => { q with base := some 0x800000, abroad := [(5, some 7)] })
     tabGet none (chan d 4).lq.abroad 5 = some (7 : Raw) ∧ tabGet (none : Option Raw) (chan d 4).lq.abroad 6 = none ∧
     (lqEnt d 4 5).st = .free ∧ LqSt.ready ≠ .free ∧ BankFree d mrxReq (lqPlace d 4 5 0)) ∧
    paired (formed .active) = true := by decide
theorem test_witness_castling_words : castlingNow (pairing (fun p => { p with peerCastling := true }) (formed .active)) = true ∧
    (formed .active).pair.castling = none ∧ (pairing (fun p => { p with castling := some .whole }) (formed .active)).pair.castling ≠ none ∧
    (pairing (fun p => { p with st := .splitSuspect }) (formed .shadow)).pair.st ≠ .inStep ∧
    (pairing (fun p => { p with st := .splitSuspect }) (formed .shadow)).pair.st ≠ .resync := by decide

theorem test_witness_commit_edge :
    (let d := { stalled (encI 0x31 1 2 0) bindChannel 1 .pending with ch := driving.ch }
     canAll d (qChan 3, .queue) (freeEntryNeeds d 3 0) = true ∧
     canAll (queueTaken d) (qChan 3, .queue) (freeEntryNeeds (queueTaken d) 3 0) = false ∧ freeEntryNeeds d 3 0 ≠ []) ∧
    heldBy (running 0 0 id) (portReq 1) = [] := by decide
/-- Engine 1 stops while cell 17, which samples on the edges of cell 16, has a bit in progress. -/
theorem test_witness_last_bit :
    (let d := onEng (onPin (running 0 0x40400 id) 17 (fun q => { q with cfg := 3, busy := true, bits := 3 })) 1 (fun e => { e with st := .stopping })
     pinRuns d 17 = false ∧ samplesAt d 16 true 17 = true ∧
     samplesAt (onPin d 17 (fun q => { q with finished := true })) 16 true 17 = false) := by decide +kernel
theorem test_witness_nsp_refusals : leAt [(8 : Byte), 0, 0, 1] 2 1 = 0 ∧ leAt [(8 : Byte), 0, 1, 1] 2 1 ≠ 0 ∧
    (let d := { joined with svc := { joined.svc with nspRefused := [9] } }
     (request 13 2).src ∈ d.svc.nspRefused ∧ (request 13 2).src ∉ joined.svc.nspRefused) ∧
    64 ≤ (dropOf (ringed (fun r => { r with dropEast := List.replicate 64 (Tests.cellOf []) })) .east).length := by decide
theorem test_witness_restarts : up.svc.restartDue = .none ∧ ({ up with svc := { up.svc with restartDue := .due 9 } } : Device).svc.restartDue ≠ .none ∧
    routeTo joined 9 = some .east ∧ routeTo joined 11 = none ∧ (∀ e, Restart.none = .due e → reached up.tim.raw e = false) := by
  refine ⟨by decide, by decide, by decide, by decide, fun e h => ?_⟩
  cases h
theorem test_witness_program_writes : (running 0 0 id).eng[1].st ≠ .stopped ∧
    (let d := { running 0 0 id with img := { (running 0 0 id).img with held := some 9, drained := true } }
     d.img.held = some ((1 : EngNo).val / 2 + 9) ∧ d.img.drained = true) ∧
    ¬ ((running 0 0 id).img.held = some ((1 : EngNo).val / 2 + 9)) := by decide

end Sys2Proof.Tests
end

section
/-! The lattice monitor's commands (02_lattice_timing.md): LAT_TEMPO, its peak and the ECON bits. -/

namespace Sys2Proof.LatticeMonitor

open Sys2Proof.Machine Sys2Proof.Stated

theorem exec_tempoMeasurement (ps : BitVec 16) (s : State) :
    exec (.tempoMeasurement ps) s = execTempoMeasurement ps s := by rfl

theorem exec_peakClear (s : State) : exec .peakClear s = execPeakClear s := by rfl

theorem exec_vcoreEconEnter (s : State) : exec .vcoreEconEnter s = execVcoreEconEnter s := by rfl

theorem exec_vcoreEconExit (s : State) : exec .vcoreEconExit s = execVcoreEconExit s := by rfl

variable {s : State}

/-- A command whose meaning is a lattice action has its whole effect on the device once the lattice die is out of reset
(R396). -/
theorem runsTo_of_exec_eq_latAct {c : Instr} {f : Device → Device} (hexec : exec c s = latAct s f) (hup : Up s) :
    RunsTo c s (f s.dev) :=
  hexec.trans (latAct_up s f hup)

/-- The measurement against the 1 508 ps of R24, and the peak of R25. -/
theorem tempoMeasurement_runsTo (hup : Up s) (ps : BitVec 16) :
    RunsTo (.tempoMeasurement ps) s { s.dev with lat := { s.dev.lat with
      tempo := ps, tempoValid := true, peak := if s.dev.lat.peak < ps then ps else s.dev.lat.peak
      slowSeen := s.dev.lat.slowSeen || decide (1508 < ps.toNat) } } :=
  runsTo_of_exec_eq_latAct (exec_tempoMeasurement ps s) hup

theorem peakClear_runsTo (hup : Up s) :
    RunsTo .peakClear s { s.dev with lat := { s.dev.lat with peak := 0 } } :=
  runsTo_of_exec_eq_latAct (exec_peakClear s) hup

/-- econ_seen is sticky (R422): entry sets it beside econ. -/
theorem vcoreEconEnter_runsTo (hup : Up s) :
    RunsTo .vcoreEconEnter s { s.dev with lat := { s.dev.lat with econ := true, econSeen := true } } :=
  runsTo_of_exec_eq_latAct (exec_vcoreEconEnter s) hup

theorem vcoreEconExit_runsTo (hup : Up s) :
    RunsTo .vcoreEconExit s { s.dev with lat := { s.dev.lat with econ := false } } :=
  runsTo_of_exec_eq_latAct (exec_vcoreEconExit s) hup

/-- Settles O5: each of the four commands is a lattice action, taken because the lattice die is up. -/
theorem latticeMeasurements : Obligations.LatticeMeasurements := by
  intro s hup
  exact ⟨tempoMeasurement_runsTo hup, peakClear_runsTo hup, vcoreEconEnter_runsTo hup, vcoreEconExit_runsTo hup⟩

end Sys2Proof.LatticeMonitor
end

section
/-! The line interface's requests (03_line_interface.md): what the operations of a channel leave of its line interface and of the rest of
the device, and what a write of CHn_LINE_CTRL or CHn_LINE_CAL does. -/

namespace Sys2Proof.LineInterface

open Sys2Proof.Machine Sys2Proof.Stated

/-- What the journal, the launch queue, the ballot and the recogniser of channel n have no part in: the device less the channel and
what it may send, and the channel's line interface. -/
def lineFrame (n : ChanNo) (d : Device) : Device × Line := (apart n d, (chan d n).line)

/-! ### The parts of a channel, and what it sends -/

@[simp] theorem apart_onChan (d : Device) (n : ChanNo) (f : Channel → Channel) : apart n (onChan d n f) = apart n d := by
  simp [apart, onChan]

@[simp] theorem apart_onLine (d : Device) (n : ChanNo) (f : Line → Line) : apart n (onLine d n f) = apart n d :=
  apart_onChan d n _

variable (d : Device) (n : ChanNo)

@[simp] theorem lineFrame_onFe (f : FrameEngine → FrameEngine) : lineFrame n (onFe d n f) = lineFrame n d :=
  Prod.ext (apart_onChan d n _) (onFe_line d n n f)

@[simp] theorem lineFrame_onLq (f : LaunchQ → LaunchQ) : lineFrame n (onLq d n f) = lineFrame n d :=
  Prod.ext (apart_onChan d n _) (onLq_line d n n f)

@[simp] theorem lineFrame_onJn (f : Journal → Journal) : lineFrame n (onJn d n f) = lineFrame n d :=
  Prod.ext (apart_onChan d n _) (onJn_line d n n f)

@[simp] theorem lineFrame_onSlp (f : Sleep → Sleep) : lineFrame n (onSlp d n f) = lineFrame n d :=
  Prod.ext (apart_onChan d n _) (onSlp_line d n n f)

@[simp] theorem lineFrame_onWake (f : Wake → Wake) : lineFrame n (onWake d n f) = lineFrame n d :=
  Prod.ext (apart_onChan d n _) (onWake_line d n n f)

@[simp] theorem lineFrame_noWait (x : Requester) (w : ConWork) : lineFrame n (noWait d x w) = lineFrame n d := rfl

@[simp] theorem lineFrame_takeFree : lineFrame n (takeFree d).2 = lineFrame n d := rfl

@[simp] theorem lineFrame_ite {c : Prop} [Decidable c] (x y : Device) :
    lineFrame n (if c then x else y) = if c then lineFrame n x else lineFrame n y :=
  apply_ite (lineFrame n) c x y

@[simp] theorem lineFrame_mirrorQueue (q : ReqNo) (m : MirMsg) : lineFrame n (mirrorQueue d q m) = lineFrame n d := rfl

@[simp] theorem lineFrame_mirrorChan (m : MirMsg) : lineFrame n (mirrorChan d n m) = lineFrame n d := by
  simp [mirrorChan]

/-! ### The launch queue and the journal -/

@[simp] theorem lineFrame_lqPut (i : LqIdx) (e : LqEnt) (committed : Bool) :
    lineFrame n (lqPut d n i e committed) = lineFrame n d := by
  simp [lqPut, lqHold, lqKeep]

@[simp] theorem lineFrame_lqFree (i : LqIdx) : lineFrame n (lqFree d n i) = lineFrame n d :=
  lineFrame_lqPut d n i {} false

@[simp] theorem lineFrame_freeEcho (echo : Option LqIdx) : lineFrame n (freeEcho d n echo) = lineFrame n d := by
  cases echo with
  | none => rfl
  | some i => simp [freeEcho]

@[simp] theorem lineFrame_countLoss (echo : Option LqIdx) : lineFrame n (countLoss d n echo) = lineFrame n d := by
  simp [countLoss, takeSeq]

/-- CON_STARVE is what a lost entry shows of the channel outside it (R273). -/
theorem lineFrame_starve (v : BitVec 64) :
    lineFrame n { d with con := { d.con with starve := v } } = lineFrame n d := rfl

@[simp] theorem lineFrame_stage (it : JItem) (len : Nat) : lineFrame n (stage d n it len) = lineFrame n d := by
  simp [stage, loseFrame, lineFrame_starve]

@[simp] theorem lineFrame_appendEntry (ws : List Word) (echo : Option LqIdx) :
    lineFrame n (appendEntry d n ws echo) = lineFrame n d := by
  simp [appendEntry]

@[simp] theorem lineFrame_busState (stamp : Raw) (gen : BitVec 4) (code : Nat) (w4 : Word) :
    lineFrame n (busState d n stamp gen code w4) = lineFrame n d :=
  lineFrame_appendEntry d n _ none

@[simp] theorem lineFrame_wakeSleep (w2 : Word) (payload : List Word) : lineFrame n (wakeSleep d n w2 payload) = lineFrame n d :=
  lineFrame_appendEntry d n _ none

@[simp] theorem lineFrame_releaseFrame : lineFrame n (releaseFrame d n) = lineFrame n d := by
  simp [releaseFrame, frameOver]

@[simp] theorem lineFrame_errorEntry (kind : Nat) (field : BusField) (asTx : Bool) (idx : Nat) (stamp : Raw) (gen : BitVec 4) :
    lineFrame n (errorEntry d n kind field asTx idx stamp gen) = lineFrame n d := by
  simp [errorEntry]

@[simp] theorem lineFrame_lqUnsent (i : LqIdx) (code : Nat) : lineFrame n (lqUnsent d n i code) = lineFrame n d := by
  simp [lqUnsent, lqKeep]

@[simp] theorem lineFrame_lqWithdraw (i : LqIdx) (code : Nat) : lineFrame n (lqWithdraw d n i code) = lineFrame n d := by
  simp [lqWithdraw]

/-- A cancel acts by the entry's state (R117). -/
@[simp] theorem lineFrame_cancelEntry (i : LqIdx) : lineFrame n (cancelEntry d n i) = lineFrame n d := by
  unfold cancelEntry
  dsimp only
  split
  · rfl
  · cases (lqEnt d n i).st <;> simp

/-! ### The ballot and the recogniser -/

@[simp] theorem lineFrame_disarm : lineFrame n (disarm d n) = lineFrame n d :=
  lineFrame_onWake d n _

@[simp] theorem lineFrame_ballotEnd (result : Nat) : lineFrame n (ballotEnd d n result) = lineFrame n d := by
  simp [ballotEnd, mirrorBallot, dropFrame]

/-- The abort of a ballot hangs on its phase (R160, R165). -/
@[simp] theorem lineFrame_queueAbort (i : LqIdx) : lineFrame n (queueAbort d n i) = lineFrame n d := by
  unfold queueAbort
  dsimp only
  split
  · rfl
  · cases (chan d n).slp.phase <;> simp

@[simp] theorem lineFrame_enterReady (i : LqIdx) (e : LqEnt) : lineFrame n (enterReady d n i e) = lineFrame n d := by
  simp [enterReady]

@[simp] theorem lineFrame_armWith (pre : Bool) (cal : BitVec 12) : lineFrame n (armWith d n pre cal) = lineFrame n d := by
  simp [armWith]

@[simp] theorem lineFrame_armOp (pre : Bool) : lineFrame n (armOp d n pre) = lineFrame n d := by
  simp [armOp]

/-! ### Changes of the engine's mode -/

@[simp] theorem lineFrame_attemptFails (code : Nat) : lineFrame n (attemptFails d n code) = lineFrame n d := by
  unfold attemptFails
  cases lqOnBus d n <;> simp

@[simp] theorem lineFrame_followedEnds (f : Option Frame) : lineFrame n (followedEnds d n f) = lineFrame n d := by
  unfold followedEnds
  cases lqOnBus d n <;> simp [settleEntry]

@[simp] theorem lineFrame_driveLost : lineFrame n (driveLost d n) = lineFrame n d := by
  simp [driveLost]

@[simp] theorem lineFrame_receivedBit : lineFrame n (receivedBit d n).2 = lineFrame n d := by
  simp [receivedBit, apply_ite Prod.snd]

@[simp] theorem lineFrame_rxLost : lineFrame n (rxLost d n) = lineFrame n d := by
  simp [rxLost]

@[simp] theorem lineFrame_afterMode (m0 : Mode) : lineFrame n (afterMode d n m0) = lineFrame n d := by
  simp [afterMode]

/-! ### The line state and the token -/

@[simp] theorem lineFrame_onLine (f : Line → Line) : lineFrame n (onLine d n f) = (apart n d, f (chan d n).line) :=
  Prod.ext (apart_onLine d n f) (onLine_line d n f)

/-- The line interface at the start of a transition (R45, R48). -/
def movedLine (l : Line) (new req : LineSt) (cause : Nat) : Line :=
  { l with
    state := new, req := req, moving := true, rxReady := false, bias := decide (new ≠ .off) && decide (new ≠ .sleep)
    expired := decide (cause = 4), calBusy := l.calBusy && decide (new = .off) }

theorem lineFrame_lineMove (new req : LineSt) (cause : Nat) :
    lineFrame n (lineMove d n new req cause) = (apart n d, movedLine (chan d n).line new req cause) := by
  simp [lineMove, lineEntry, movedLine]

variable {d n}

theorem toSentinel_of_vaonUp (hvaon : d.glb.vaonUp = true) (f : Device → Device) : toSentinel d f = f d :=
  if_pos hvaon

theorem toSentinel_of_vaonDown (hvaon : ¬ d.glb.vaonUp = true) (f : Device → Device) : toSentinel d f = d :=
  if_neg hvaon

/-- The token set or not changes nothing of the line interface but the token (R50). -/
theorem lineFrame_setToken_or_not {a : Device} {l : Line} (c : Prop) [Decidable c] (v : Bool)
    (hd : lineFrame n d = (a, l)) : ∃ b, lineFrame n (if c then setToken d n v else d) = (a, { l with token := b }) := by
  obtain ⟨rfl, rfl⟩ : apart n d = a ∧ (chan d n).line = l := Prod.mk.inj hd
  by_cases hc : c
  · rw [if_pos hc, setToken]
    by_cases hvaon : d.glb.vaonUp = true
    · exact ⟨v, by simp [toSentinel_of_vaonUp hvaon]⟩
    · exact ⟨(chan d n).line.token, by rw [toSentinel_of_vaonDown hvaon, hd]⟩
  · exact ⟨(chan d n).line.token, by rw [if_neg hc, hd]⟩

/-! ### A write of line_req -/

/-- The requests that a role refuses (R44). -/
def RoleRefuses (r : Role) (q : LineSt) : Prop := r = .off ∧ q ≠ .off ∨ r = .listen ∧ q = .normal

variable {q : LineSt}

theorem lineRequest_of_refuses (hrole : RoleRefuses (chan d n).fe.role q) :
    lineRequest d n q = onLine d n (fun l => { l with evt := setBit l.evt 6 }) := by
  have hrefused : ((decide ((chan d n).fe.role = .off) && decide (q ≠ .off)) ||
      (decide ((chan d n).fe.role = .listen) && decide (q = .normal))) = true := by
    simpa [RoleRefuses] using hrole
  exact if_pos hrefused

/-- The line interface of an accepted request (R43), confirm_late with it (R54). -/
def requestedLine (l : Line) (q : LineSt) : Line :=
  { l with
    req := q, reqWritten := true
    evt := if l.expired && decide (l.state = .sleep) && (decide (q = .normal) || decide (q = .listen)) then setBit l.evt 2
      else l.evt }

/-- An accepted request where the line stands already makes no transition (R45). -/
theorem lineFrame_lineRequest_at (hrole : ¬ RoleRefuses (chan d n).fe.role q) (hat : q = (chan d n).line.state) :
    ∃ b, lineFrame n (lineRequest d n q) = (apart n d, { requestedLine (chan d n).line q with token := b }) := by
  unfold lineRequest
  dsimp only
  rw [if_neg (by simpa [RoleRefuses] using hrole)]
  apply lineFrame_setToken_or_not
  simp [hat, requestedLine]

/-- An accepted request for another state starts the transition to it (R45, R48). -/
theorem lineFrame_lineRequest_to (hrole : ¬ RoleRefuses (chan d n).fe.role q) (hvaon : d.glb.vaonUp = true)
    (hto : q ≠ (chan d n).line.state) :
    ∃ b, lineFrame n (lineRequest d n q) =
      (apart n d, { movedLine (requestedLine (chan d n).line q) q q 0 with token := b }) := by
  unfold lineRequest
  dsimp only
  rw [if_neg (by simpa [RoleRefuses] using hrole)]
  apply lineFrame_setToken_or_not
  simp [hto, requestedLine, lineFrame_lineMove, toSentinel_of_vaonUp, hvaon]

/-- What an accepted request for state q leaves of channel n (R43, R45, R48). -/
def Taken (d : Device) (n : ChanNo) (q : LineSt) (t : Device) : Prop :=
  (chan t n).line.req = q ∧ (chan t n).line.state = q ∧ (chan t n).line.reqWritten = true ∧
  ((chan d n).line.state ≠ q → (chan t n).line.moving = true ∧ (chan t n).line.rxReady = false) ∧ OnlyChan n d t

theorem taken_lineRequest (hrole : ¬ RoleRefuses (chan d n).fe.role q) (hvaon : d.glb.vaonUp = true) :
    Taken d n q (lineRequest d n q) := by
  by_cases hq : q = (chan d n).line.state
  · obtain ⟨b, hframe⟩ := lineFrame_lineRequest_at hrole hq
    obtain ⟨hapart, hline⟩ := Prod.mk.inj hframe
    refine ⟨?_, ?_, ?_, fun hne => absurd hq.symm hne, hapart⟩ <;> simp [hline, requestedLine, ← hq]
  · obtain ⟨b, hframe⟩ := lineFrame_lineRequest_to hrole hvaon hq
    obtain ⟨hapart, hline⟩ := Prod.mk.inj hframe
    refine ⟨?_, ?_, ?_, fun _ => ?_, hapart⟩ <;> simp [hline, movedLine, requestedLine]

/-! ### The other fields of CHn_LINE_CTRL, and the calibration -/

theorem termWrite_of_taken {v : Bool} (hvaon : d.glb.vaonUp = true) (hrole : v = false ∨ (chan d n).fe.role = .head) :
    termWrite d n v = onLine d n (fun l => { l with termEn := v }) := by
  rw [termWrite, toSentinel_of_vaonUp hvaon, if_neg]
  rcases hrole with hv | hhead
  · simp [hv]
  · simp [hhead]

theorem termWrite_of_refused (hvaon : d.glb.vaonUp = true) (hrole : (chan d n).fe.role ≠ .head) :
    termWrite d n true = onLine d n (fun l => { l with evt := setBit l.evt 6 }) := by
  rw [termWrite, toSentinel_of_vaonUp hvaon, if_pos (by simpa using hrole)]

theorem lineCalStart_of_off (hidle : (chan d n).line.calBusy = false) (hoff : (chan d n).line.state = .off) :
    lineCalStart d n = onLine d n (fun l => { l with calBusy := true }) := by
  simp [lineCalStart, hidle, hoff]

theorem lineCalStart_of_not_off (hidle : (chan d n).line.calBusy = false) (hon : (chan d n).line.state ≠ .off) :
    lineCalStart d n = onLine d n (fun l => { l with evt := setBit l.evt 7 }) := by
  simp [lineCalStart, hidle, hon]

theorem onLine_congr {f g : Line → Line} (h : f (chan d n).line = g (chan d n).line) : onLine d n f = onLine d n g := by
  simp [onLine, onChan, h]

/-! ### The commands -/

theorem exec_lineReqOff (n : ChanNo) (s : State) : exec (.lineReqOff n) s = latAct s (fun d => lineRequest d n .off) := by rfl

theorem exec_lineReqSleep (n : ChanNo) (s : State) :
    exec (.lineReqSleep n) s = latAct s (fun d => lineRequest d n .sleep) := by rfl

theorem exec_lineReqNormal (n : ChanNo) (s : State) :
    exec (.lineReqNormal n) s = latAct s (fun d => lineRequest d n .normal) := by rfl

theorem exec_lineReqListen (n : ChanNo) (s : State) :
    exec (.lineReqListen n) s = latAct s (fun d => lineRequest d n .listen) := by rfl

theorem exec_termEnWrite (n : ChanNo) (v : Bool) (s : State) :
    exec (.termEnWrite n v) s = latAct s (fun d => termWrite d n v) := by rfl

theorem exec_localWakeEnWrite (n : ChanNo) (v : Bool) (s : State) :
    exec (.localWakeEnWrite n v) s = latAct s (fun d => localWakeWrite d n v) := by rfl

theorem exec_lineCalStart (n : ChanNo) (s : State) :
    exec (.lineCalStart n) s = latAct s (fun d => lineCalStart d n) := by rfl

theorem exec_lineCalDone (n : ChanNo) (result : BitVec 12) (s : State) :
    exec (.lineCalDone n result) s = latAct s (fun d => onLine d n (fun l =>
      if l.calBusy && decide (l.state = .off) then { l with calBusy := false, calValid := true, calResult := result }
      else l)) := by rfl

variable {s : State} {c : Instr}

/-- A lattice action whose effect on the device is d leaves d, once the lattice die is out of reset (R396). -/
theorem runsTo_of_exec_eq {f : Device → Device} (hexec : exec c s = latAct s f) (hup : Up s) (hf : f s.dev = d) : RunsTo c s d :=
  hf ▸ LatticeMonitor.runsTo_of_exec_eq_latAct hexec hup

/-- A command that writes line_req with a state that the role accepts. -/
theorem runs_taken (hexec : exec c s = latAct s (fun d => lineRequest d n q)) (hup : Up s) (hvaon : Vaon s)
    (hrole : ¬ RoleRefuses (chan s.dev n).fe.role q) : Runs c s (Taken s.dev n q) :=
  ⟨_, LatticeMonitor.runsTo_of_exec_eq_latAct hexec hup, rfl, taken_lineRequest hrole hvaon⟩

/-- A command that writes line_req with a state that the role refuses. -/
theorem runsTo_role_refused (hexec : exec c s = latAct s (fun d => lineRequest d n q)) (hup : Up s)
    (hrole : RoleRefuses (chan s.dev n).fe.role q) :
    RunsTo c s (onLine s.dev n (fun l => { l with evt := setBit l.evt 6 })) :=
  runsTo_of_exec_eq hexec hup (lineRequest_of_refuses hrole)

/-- R44 for the requests of each role. -/
theorem lineReq_runs_taken (n : ChanNo) (hup : Up s) (hvaon : Vaon s) :
    Runs (.lineReqOff n) s (Taken s.dev n .off) ∧
    ((chan s.dev n).fe.role ≠ .off →
      Runs (.lineReqSleep n) s (Taken s.dev n .sleep) ∧ Runs (.lineReqListen n) s (Taken s.dev n .listen)) ∧
    ((chan s.dev n).fe.role ≠ .off → (chan s.dev n).fe.role ≠ .listen →
      Runs (.lineReqNormal n) s (Taken s.dev n .normal)) := by
  refine ⟨?_, fun hoff => ⟨?_, ?_⟩, fun hoff hlisten => ?_⟩
  · exact runs_taken (exec_lineReqOff n s) hup hvaon (by simp [RoleRefuses])
  · exact runs_taken (exec_lineReqSleep n s) hup hvaon (by simp [RoleRefuses, hoff])
  · exact runs_taken (exec_lineReqListen n s) hup hvaon (by simp [RoleRefuses, hoff])
  · exact runs_taken (exec_lineReqNormal n s) hup hvaon (by simp [RoleRefuses, hoff, hlisten])

theorem lineReq_runsTo_role_refused (n : ChanNo) (hup : Up s) :
    let bad := onLine s.dev n (fun l => { l with evt := setBit l.evt 6 })
    ((chan s.dev n).fe.role = .off →
      RunsTo (.lineReqSleep n) s bad ∧ RunsTo (.lineReqNormal n) s bad ∧ RunsTo (.lineReqListen n) s bad) ∧
    ((chan s.dev n).fe.role = .listen → RunsTo (.lineReqNormal n) s bad) := by
  refine ⟨fun hoff => ⟨?_, ?_, ?_⟩, fun hlisten => ?_⟩
  · exact runsTo_role_refused (exec_lineReqSleep n s) hup (by simp [RoleRefuses, hoff])
  · exact runsTo_role_refused (exec_lineReqNormal n s) hup (by simp [RoleRefuses, hoff])
  · exact runsTo_role_refused (exec_lineReqListen n s) hup (by simp [RoleRefuses, hoff])
  · exact runsTo_role_refused (exec_lineReqNormal n s) hup (by simp [RoleRefuses, hlisten])

theorem termEnWrite_runsTo (n : ChanNo) (hup : Up s) (hvaon : Vaon s) {v : Bool}
    (hrole : v = false ∨ (chan s.dev n).fe.role = .head) :
    RunsTo (.termEnWrite n v) s (onLine s.dev n (fun l => { l with termEn := v })) :=
  runsTo_of_exec_eq (exec_termEnWrite n v s) hup (termWrite_of_taken hvaon hrole)

theorem termEnWrite_runsTo_refused (n : ChanNo) (hup : Up s) (hvaon : Vaon s) (hrole : (chan s.dev n).fe.role ≠ .head) :
    RunsTo (.termEnWrite n true) s (onLine s.dev n (fun l => { l with evt := setBit l.evt 6 })) :=
  runsTo_of_exec_eq (exec_termEnWrite n true s) hup (termWrite_of_refused hvaon hrole)

theorem localWakeEnWrite_runsTo (n : ChanNo) (v : Bool) (hup : Up s) (hvaon : Vaon s) :
    RunsTo (.localWakeEnWrite n v) s (onLine s.dev n (fun l => { l with localWake := v })) :=
  runsTo_of_exec_eq (exec_localWakeEnWrite n v s) hup (toSentinel_of_vaonUp hvaon _)

theorem lineCalStart_runsTo (n : ChanNo) (hup : Up s) (hidle : (chan s.dev n).line.calBusy = false)
    (hoff : (chan s.dev n).line.state = .off) :
    RunsTo (.lineCalStart n) s (onLine s.dev n (fun l => { l with calBusy := true })) :=
  runsTo_of_exec_eq (exec_lineCalStart n s) hup (lineCalStart_of_off hidle hoff)

theorem lineCalStart_runsTo_refused (n : ChanNo) (hup : Up s) (hidle : (chan s.dev n).line.calBusy = false)
    (hon : (chan s.dev n).line.state ≠ .off) :
    RunsTo (.lineCalStart n) s (onLine s.dev n (fun l => { l with evt := setBit l.evt 7 })) :=
  runsTo_of_exec_eq (exec_lineCalStart n s) hup (lineCalStart_of_not_off hidle hon)

/-- A calibration that ends in OFF is valid (R68). -/
theorem lineCalDone_runsTo (n : ChanNo) (result : BitVec 12) (hup : Up s) (hbusy : (chan s.dev n).line.calBusy = true)
    (hoff : (chan s.dev n).line.state = .off) :
    RunsTo (.lineCalDone n result) s (onLine s.dev n (fun l =>
      { l with calBusy := false, calValid := true, calResult := result })) :=
  runsTo_of_exec_eq (exec_lineCalDone n result s) hup (onLine_congr (by simp [hbusy, hoff]))

/-- Settles O6: an accepted request leaves the line interface of taken_lineRequest, since the operations that it sets off leave
all but the channel, what it sends, and the line interface as they were (lineFrame); every other command writes its one field. -/
theorem lineRequestsByRole : Obligations.LineRequestsByRole := by
  refine ⟨fun s n hup hvaon => lineReq_runs_taken n hup hvaon, fun s n hup => lineReq_runsTo_role_refused n hup,
    fun s n hup => ⟨?_, ?_, ?_, ?_, ?_, ?_⟩⟩
  · exact fun v hvaon hrole => termEnWrite_runsTo n hup hvaon hrole
  · exact fun hvaon hrole => termEnWrite_runsTo_refused n hup hvaon hrole
  · exact fun v hvaon => localWakeEnWrite_runsTo n v hup hvaon
  · exact fun hidle hoff => lineCalStart_runsTo n hup hidle hoff
  · exact fun hidle hon => lineCalStart_runsTo_refused n hup hidle hon
  · exact fun r hbusy hoff => lineCalDone_runsTo n r hup hbusy hoff

end Sys2Proof.LineInterface
end

section
/-! The increments of fabric time (08_fabric_time.md, R192 to R196): who may commit one, what a commit leaves on its way, and what the
T edge that applies it does to the rate, the offset and the generation. -/

namespace Sys2Proof.FabricTimeIncrements

open Sys2Proof.Machine Sys2Proof.Stated

variable {s : State} {d : Device} {src : Src} {hi : Word}

theorem exec_offsetIncCommit (src : Src) (hi : Word) (s : State) :
    exec (.offsetIncCommit src hi) s = execOffsetIncCommit src hi s := by rfl

theorem exec_rateIncCommit (src : Src) (hi : Word) (s : State) :
    exec (.rateIncCommit src hi) s = execRateIncCommit src hi s := by rfl

theorem exec_incrementApply (s : State) : exec .incrementApply s = execIncrementApply s := by rfl

/-! ### Who may commit, and when (R196, R213) -/

/-- A ring host and the service port count as one party. -/
theorem mayServo_iff : mayServo d src = true ↔ d.pair.role ≠ .shadow ∧
    ((src = .housekeeper ∧ d.tim.servoHost = false) ∨ (src ≠ .housekeeper ∧ d.tim.servoHost = true)) := by
  cases src <;> simp [mayServo]

theorem servoIdle_eq_false_iff : servoIdle d src = false ↔
    (src = .housekeeper → d.tim.masterLost = false ∧ d.tim.pairInc = true) := by
  by_cases h : src = .housekeeper <;> simp [servoIdle, h]

/-- The moment kept, if any, does not lie within the last n ticks: what Elapsed asks for. -/
theorem any_within_eq_false_iff (kept : Option Raw) (now : Raw) (n : Nat) :
    kept.any (fun r => decide ((now - r).toNat < n)) = false ↔ ∀ r, kept = some r → n ≤ (now - r).toNat := by
  cases kept <;> simp [-BitVec.toNat_sub]

theorem servoDone_eq_false_iff : servoDone d src = false ↔
    (src = .housekeeper → Elapsed d d.tim.servoAt (d.tim.beaconMs.toNat * msTicks)) := by
  unfold servoDone Elapsed
  rw [← any_within_eq_false_iff]
  by_cases h : src = .housekeeper <;> simp [h, -BitVec.toNat_sub]

/-! ### The commits (R192, R194) -/

theorem offsIncCommit_of_not_mayServo (hi : Word) (h : ¬ mayServo d src = true) :
    offsIncCommit d src hi = { d with tim := { d.tim with evt := setBit d.tim.evt 1 } } := by
  simp [offsIncCommit, ownerRefused, h]

theorem offsIncCommit_of_resting (hi : Word) (hmay : mayServo d src = true)
    (h : ¬ (servoIdle d src = false ∧ servoDone d src = false)) : offsIncCommit d src hi = d := by
  rw [← Bool.or_eq_false_iff, Bool.not_eq_false] at h
  simp [offsIncCommit, hmay, h]

theorem offsIncCommit_of_taken (hi : Word) (hmay : mayServo d src = true) (hidle : servoIdle d src = false)
    (hdone : servoDone d src = false) :
    offsIncCommit d src hi = { d with tim := { d.tim with
      offsInc := (commit64 d 0x400040 hi).setWidth 48
      incs := d.tim.incs ++ [⟨(commit64 d 0x400040 hi).setWidth 48, d.tim.staged⟩], staged := none
      servoAt := if src = .housekeeper then some d.tim.raw else d.tim.servoAt } } := by
  simp [offsIncCommit, hmay, hidle, hdone]

theorem rateIncCommit_of_not_mayServo (hi : Word) (h : ¬ mayServo d src = true) :
    rateIncCommit d src hi = { d with tim := { d.tim with evt := setBit d.tim.evt 1 } } := by
  simp [rateIncCommit, ownerRefused, h]

theorem rateIncCommit_of_resting (hi : Word) (hmay : mayServo d src = true) (h : ¬ servoIdle d src = false) :
    rateIncCommit d src hi = d := by
  simp [rateIncCommit, hmay, h]

theorem rateIncCommit_of_paired (hi : Word) (hmay : mayServo d src = true) (hidle : servoIdle d src = false)
    (hpair : d.tim.pairInc = true) :
    rateIncCommit d src hi = { d with tim := { d.tim with
      rateInc := (commit64 d 0x400048 hi).setWidth 41, staged := some ((commit64 d 0x400048 hi).setWidth 41) } } := by
  simp [rateIncCommit, hmay, hidle, hpair]

theorem rateIncCommit_of_alone (hi : Word) (hmay : mayServo d src = true) (hidle : servoIdle d src = false)
    (hpair : d.tim.pairInc = false) :
    rateIncCommit d src hi = { d with tim := { d.tim with
      rateInc := (commit64 d 0x400048 hi).setWidth 41
      incs := d.tim.incs ++ [⟨0, some ((commit64 d 0x400048 hi).setWidth 41)⟩], staged := none } } := by
  simp [rateIncCommit, hmay, hidle, hpair]

theorem offsetIncCommit_runsTo (hup : Up s) {t : Device} (h : offsIncCommit s.dev src hi = t) :
    RunsTo (.offsetIncCommit src hi) s t :=
  h ▸ LatticeMonitor.runsTo_of_exec_eq_latAct (exec_offsetIncCommit src hi s) hup

theorem rateIncCommit_runsTo (hup : Up s) {t : Device} (h : rateIncCommit s.dev src hi = t) :
    RunsTo (.rateIncCommit src hi) s t :=
  h ▸ LatticeMonitor.runsTo_of_exec_eq_latAct (exec_rateIncCommit src hi s) hup

/-! ### Fabric time across a change of rate (R190, R193) -/

theorem rateInRange_iff {r : Int} : rateInRange r = true ↔
    624375 * 1099511627776 ≤ r * 100000 ∧ r * 100000 ≤ 625625 * 1099511627776 := by
  simp [rateInRange]

theorem toNat_ofInt_of_rateInRange {r : Int} (h : rateInRange r = true) : ((BitVec.ofInt 48 r).toNat : Int) = r := by
  rw [rateInRange_iff] at h
  rw [BitVec.toNat_ofInt]
  omega

/-- A floor of a sum is the sum of the floors, or one more: the term taken from the offset leaves fabric time within 2^-16 ns. -/
theorem ftAt_of_rate_change {rate rate' : BitVec 48} {dr : Int} (h : (rate'.toNat : Int) = rate.toNat + dr)
    (offset dOff : BitVec 80) (b : Int) :
    ftAt rate' (offset + dOff - BitVec.ofInt 80 (b * dr / 16777216)) b 1 = ftAt rate offset b 1 + dOff ∨
    ftAt rate' (offset + dOff - BitVec.ofInt 80 (b * dr / 16777216)) b 1 = ftAt rate offset b 1 + dOff + 1 := by
  have hprod : b * (rate'.toNat : Int) = b * rate.toNat + b * dr := by rw [h, mul_add]
  have hfloor : b * (rate'.toNat : Int) / 16777216 = b * rate.toNat / 16777216 + b * dr / 16777216 ∨
      b * (rate'.toNat : Int) / 16777216 = b * rate.toNat / 16777216 + b * dr / 16777216 + 1 := by
    omega
  simp only [ftAt, Nat.cast_one, one_mul]
  rcases hfloor with hq | hq
  · left
    rw [hq, BitVec.ofInt_add]
    ring
  · right
    have hone : BitVec.ofInt 80 1 = 1 := rfl
    rw [hq, BitVec.ofInt_add, BitVec.ofInt_add, hone]
    ring

/-- With the rate as it was the offset moves fabric time exactly. -/
theorem ftAt_add_offset (rate : BitVec 48) (offset dOff : BitVec 80) (b : Int) :
    ftAt rate (offset + dOff) b 1 = ftAt rate offset b 1 + dOff := by
  simp only [ftAt]
  ring

/-! ### The application (R193, R195) -/

/-- The rate increment that an increment carries; without one, 0. -/
def rateStep (i : Increment) : Int := (i.dRate.map BitVec.toInt).getD 0

/-- The rate that an application would give, in 2^-40 ns. -/
def rateAfter (d : Device) (i : Increment) : Int := d.tim.rate.toNat + rateStep i

/-- The offset of the generation that an application at the raw value now begins. -/
def offsetAfter (d : Device) (i : Increment) : BitVec 80 :=
  d.tim.offset + BitVec.ofInt 80 i.dOff.toInt - BitVec.ofInt 80 ((d.tim.raw.toNat : Int) * rateStep i / 16777216)

/-- The generation that an application at the raw value now begins. -/
def generationAfter (d : Device) (i : Increment) : Device :=
  newGeneration d (d.tim.gen + 1) d.tim.raw (BitVec.ofInt 48 (rateAfter d i)) (offsetAfter d i)

/-- What follows a new generation: the partner is told (R284), and a station that has an estimate acquires time (R400). -/
def generationTold (d : Device) : Device :=
  let t := mirrorActive d qTime (.time d.tim.rate d.tim.offset d.tim.gen d.tim.raw)
  if t.tim.cw.valid || t.tim.ccw.valid then acquireTime t else t

theorem applyIncrement_eq (d : Device) (i : Increment) : applyIncrement d i =
    if rateInRange (rateAfter d i) then generationTold (generationAfter d i)
    else { d with tim := { d.tim with evt := setBit d.tim.evt 0, staged := none } } := by
  obtain ⟨dOff, _ | dRate⟩ := i <;> rfl

theorem applyIncrement_of_in_range {i : Increment} (h : rateInRange (rateAfter d i) = true) :
    applyIncrement d i = generationTold (generationAfter d i) := by
  rw [applyIncrement_eq, if_pos h]

theorem applyIncrement_of_out_of_range {i : Increment} (h : ¬ rateInRange (rateAfter d i) = true) :
    applyIncrement d i = { d with tim := { d.tim with evt := setBit d.tim.evt 0, staged := none } } := by
  rw [applyIncrement_eq, if_neg h]

@[simp] theorem mirrorActive_tim (d : Device) (q : ReqNo) (m : MirMsg) : (mirrorActive d q m).tim = d.tim := by
  unfold mirrorActive mirrorQueue
  split <;> rfl

@[simp] theorem acquireTime_tim (d : Device) : (acquireTime d).tim = d.tim := by
  unfold acquireTime
  split <;> rfl

/-- The device with its time unit and its acquired flag replaced: beside what hush blanks, all that an application in range may change. -/
def withTime (d : Device) (tim : TimeUnit) (acquired : Bool) : Device :=
  { d with tim := tim, glb := { d.glb with acquired := acquired } }

theorem mirrorActive_hush (d : Device) (q : ReqNo) (m : MirMsg) (tim : TimeUnit) (acquired : Bool) :
    hush (withTime (mirrorActive d q m) tim acquired) = hush (withTime d tim acquired) := by
  unfold mirrorActive mirrorQueue
  split <;> rfl

theorem acquireTime_hush (d : Device) (tim : TimeUnit) (acquired : Bool) :
    hush (withTime (acquireTime d) tim acquired) = hush (withTime d tim acquired) := by
  unfold acquireTime
  split <;> rfl

theorem generationTold_cases (d : Device) : ∃ m, generationTold d = acquireTime (mirrorActive d qTime m) ∨
    generationTold d = mirrorActive d qTime m := by
  refine ⟨.time d.tim.rate d.tim.offset d.tim.gen d.tim.raw, ?_⟩
  simp only [generationTold]
  split
  · exact .inl rfl
  · exact .inr rfl

@[simp] theorem generationTold_tim (d : Device) : (generationTold d).tim = d.tim := by
  obtain ⟨m, h | h⟩ := generationTold_cases d <;> simp [h]

theorem generationTold_hush (d : Device) (tim : TimeUnit) (acquired : Bool) :
    hush (withTime (generationTold d) tim acquired) = hush (withTime d tim acquired) := by
  obtain ⟨m, h | h⟩ := generationTold_cases d
  · rw [h, acquireTime_hush, mirrorActive_hush]
  · rw [h, mirrorActive_hush]

theorem ftNow_generationTold (d : Device) (r : Raw) : ftNow (generationTold d) r = ftNow d r := by
  simp [ftNow]

/-- Fabric time at the boundary moves by the offset increment, to within 2^-16 ns (R193). -/
theorem ftNow_generationAfter {i : Increment} (h : rateInRange (rateAfter d i) = true) :
    ftNow (generationAfter d i) d.tim.raw = ftNow d d.tim.raw + BitVec.ofInt 80 i.dOff.toInt ∨
    ftNow (generationAfter d i) d.tim.raw = ftNow d d.tim.raw + BitVec.ofInt 80 i.dOff.toInt + 1 :=
  ftAt_of_rate_change (toNat_ofInt_of_rateInRange h) d.tim.offset _ _

theorem generationAfter_rate_of_dRate_none {i : Increment} (h : i.dRate = none) :
    (generationAfter d i).tim.rate = d.tim.rate := by
  simp [generationAfter, newGeneration, rateAfter, rateStep, h]

theorem ftNow_generationAfter_of_dRate_none {i : Increment} (h : i.dRate = none) :
    ftNow (generationAfter d i) d.tim.raw = ftNow d d.tim.raw + BitVec.ofInt 80 i.dOff.toInt := by
  have hoffset : (generationAfter d i).tim.offset = d.tim.offset + BitVec.ofInt 80 i.dOff.toInt := by
    simp [generationAfter, newGeneration, offsetAfter, rateStep, h]
  rw [ftNow, generationAfter_rate_of_dRate_none h, hoffset]
  exact ftAt_add_offset _ _ _ _

/-! ### The T edge (R189, R192) -/

@[simp] theorem spanTick_tim (d : Device) (sd : Side) : (spanTick d sd).tim = d.tim := by
  simp only [spanTick, newCell]
  split
  · rfl
  · split <;> simp

@[simp] theorem spanTick_glb (d : Device) (sd : Side) : (spanTick d sd).glb = d.glb := by
  simp only [spanTick, newCell]
  split
  · rfl
  · split <;> simp

/-- A T edge before any increment is applied: the raw counter, and the SPAN_DOWN cells of the failed sides. -/
def edgeTick (d : Device) : Device :=
  spanTick (spanTick { d with tim := { d.tim with raw := d.tim.raw + 1 } } .east) .west

@[simp] theorem edgeTick_tim (d : Device) : (edgeTick d).tim = { d.tim with raw := d.tim.raw + 1 } := by
  simp [edgeTick]

@[simp] theorem edgeTick_glb (d : Device) : (edgeTick d).glb = d.glb := by
  simp [edgeTick]

/-- The T edge at the moment of an application, the oldest increment taken off the list. -/
def boundaryEdge (d : Device) (rest : List Increment) : Device :=
  { edgeTick d with tim := { d.tim with raw := d.tim.raw + 1, incs := rest } }

theorem tEdge_of_incs_cons {i : Increment} {rest : List Increment} (h : d.tim.incs = i :: rest) :
    tEdge d = applyIncrement (boundaryEdge d rest) i := by
  have hincs : (edgeTick d).tim.incs = i :: rest := by simp [h]
  unfold edgeTick at hincs
  simp only [tEdge, hincs, boundaryEdge, edgeTick]
  simp

theorem incrementApply_runsTo {i : Increment} {rest : List Increment} (hup : Up s) (h : s.dev.tim.incs = i :: rest) :
    RunsTo .incrementApply s (applyIncrement (boundaryEdge s.dev rest) i) := by
  have hrun := LatticeMonitor.runsTo_of_exec_eq_latAct (exec_incrementApply s) hup
  simpa [h, tEdge_of_incs_cons h] using hrun

/-- Only the time unit, the acquired flag and what the partner is told differ after an application in range. -/
theorem boundaryEdge_told_hush (d : Device) (i : Increment) (rest : List Increment) :
    hush (withTime (generationTold (generationAfter (boundaryEdge d rest) i)) (edgeTick d).tim d.glb.acquired) =
      hush (edgeTick d) := by
  rw [generationTold_hush]
  simp only [withTime, generationAfter, newGeneration, boundaryEdge, ← edgeTick_glb d]

theorem incrementApply_runsTo_in_range {i : Increment} {rest : List Increment} (hup : Up s) (hincs : s.dev.tim.incs = i :: rest)
    (hrange : rateInRange (rateAfter s.dev i) = true) :
    RunsTo .incrementApply s (generationTold (generationAfter (boundaryEdge s.dev rest) i)) := by
  have happly := applyIncrement_of_in_range (d := boundaryEdge s.dev rest) hrange
  exact happly ▸ incrementApply_runsTo hup hincs

theorem incrementApply_runsTo_out_of_range {i : Increment} {rest : List Increment} (hup : Up s)
    (hincs : s.dev.tim.incs = i :: rest) (hrange : ¬ rateInRange (rateAfter s.dev i) = true) :
    RunsTo .incrementApply s { edgeTick s.dev with tim := { s.dev.tim with
      raw := s.dev.tim.raw + 1, incs := rest, evt := setBit s.dev.tim.evt 0, staged := none } } := by
  have happly := applyIncrement_of_out_of_range (d := boundaryEdge s.dev rest) hrange
  exact happly ▸ incrementApply_runsTo hup hincs

/-- Settles O25: the commits by who may commit and when; the application by whether the new rate is in range, where the
generation after the edge moves fabric time at the boundary by the offset increment (ftNow_generationAfter). -/
theorem incrementsOfFabricTime : Obligations.IncrementsOfFabricTime := by
  refine ⟨fun s src hi hup => ?_, fun s i rest hup hincs => ?_⟩
  · simp only [← mayServo_iff, ← servoIdle_eq_false_iff, ← servoDone_eq_false_iff]
    refine ⟨fun hmay hidle hdone => ?_, fun hmay hrest => ?_, fun hmay hidle => ?_, fun hmay hidle hpair => ?_,
      fun hmay hidle hpair => ?_, fun hmay => ⟨?_, ?_⟩⟩
    · exact offsetIncCommit_runsTo hup (offsIncCommit_of_taken hi hmay hidle hdone)
    · exact offsetIncCommit_runsTo hup (offsIncCommit_of_resting hi hmay hrest)
    · exact rateIncCommit_runsTo hup (rateIncCommit_of_resting hi hmay hidle)
    · exact rateIncCommit_runsTo hup (rateIncCommit_of_paired hi hmay hidle hpair)
    · exact rateIncCommit_runsTo hup (rateIncCommit_of_alone hi hmay hidle hpair)
    · exact offsetIncCommit_runsTo hup (offsIncCommit_of_not_mayServo hi hmay)
    · exact rateIncCommit_runsTo hup (rateIncCommit_of_not_mayServo hi hmay)
  · refine ⟨fun hrange => ?_, fun hrange => ?_⟩
    · have hrange := rateInRange_iff.mpr hrange
      refine ⟨_, incrementApply_runsTo_in_range hup hincs hrange, rfl, ?_, ?_, fun hnone => ⟨?_, ?_⟩, ?_⟩
      · exact generationTold_tim _
      · exact (ftNow_generationTold _ _).symm ▸ ftNow_generationAfter (d := boundaryEdge s.dev rest) hrange
      · exact (congrArg TimeUnit.rate (generationTold_tim _)).trans (generationAfter_rate_of_dRate_none hnone)
      · exact (ftNow_generationTold _ _).trans (ftNow_generationAfter_of_dRate_none (d := boundaryEdge s.dev rest) hnone)
      · exact boundaryEdge_told_hush s.dev i rest
    · exact incrementApply_runsTo_out_of_range hup hincs (fun h => hrange (rateInRange_iff.mp h))

end Sys2Proof.FabricTimeIncrements
end
